-- ==== Sys2Proof/Word.lean ====
section
/-!
DEFINITION. The widths the spec names (00_scope.md R9 to R12): a byte, a 16-bit field, a 32-bit
address or descriptor word, and the 96-bit command and result descriptors. Lengths, offsets and sums
are natural numbers (R11).
-/

namespace Sys2Proof

/-- One byte of a buffer; bit 7 is the most significant (R9). -/
abbrev Byte := BitVec 8

/-- A 16-bit field: a port, a length field, a checksum. -/
abbrev Half := BitVec 16

/-- A 32-bit field: an IPv4 address, or one word of a descriptor. -/
abbrev Addr := BitVec 32

/-- A command or result descriptor, bits 95 down to 0 (R80, R86). -/
abbrev Descriptor := BitVec 96

/-- A byte sequence, first byte first on the wire (R10). -/
abbrev Bytes := List Byte

end Sys2Proof
end

