-- ==== Sys2Proof/Config.lean ====
section
/-!
DEFINITION. The seven configuration inputs (00_scope.md R7, 10_state.md R25), as data that State
carries, and the one free value of the model.
-/

namespace Sys2Proof

/-- The configuration inputs: read by commands, written by none (R25). Every value of every field is
legal. `MAX_DGRAM` is 16 bits wide, so it never exceeds 65535 (R8). -/
structure Config where
  /-- `MAX_DGRAM`: the capacity of `OBUF` in bytes. -/
  maxDgram : Half
  /-- `CFG_SRC_ADDR`: the source address `ENCODE` writes. -/
  srcAddr : Addr
  /-- `CFG_DEFAULT_DST_ADDR`: the destination when the command carries none. -/
  defaultDstAddr : Addr
  /-- `CFG_TOS`: byte 1 of the emitted header. -/
  tos : Byte
  /-- `CFG_ID`: the identification field of the emitted header. -/
  ident : Half
  /-- `CFG_FLAGS_FRAG`: flags and fragment offset of the emitted header, one word. -/
  flagsFrag : Half
  /-- `CFG_TTL`: the time to live of the emitted header. -/
  ttl : Byte
  deriving DecidableEq, Repr

/-- The values the test vectors use (R7, decision D8). DESIGN CHOICE (log entry 2): the values the
inputs have in `State.reset`; the spec gives inputs no reset value (R26). Unsafe for a statement that
rests on them; every statement about a command holds for all values. -/
def Config.vectorDefaults : Config where
  maxDgram := 1500#16
  srcAddr := 0x0A000001#32
  defaultDstAddr := 0x7F000001#32
  tos := 0x00#8
  ident := 0x0000#16
  flagsFrag := 0x0000#16
  ttl := 64#8

/-- FREE VALUE (log entry 5): the byte of `OBUF` at an address whose contents the spec leaves
unspecified (R29, R41, U8, U9). The first argument counts how often that happened. -/
opaque Config.obufFree : Nat → Nat → Byte

end Sys2Proof
end

