-- ==== Sys2Proof/Syntax.lean ====
section
/-!
DEFINITION. The three commands (30_encoding.md R81, R226), one constructor per row of
spec/opcode_table.json, with the operand fields of the descriptor (R80).
-/

namespace Sys2Proof

/-- The operand fields of the command descriptor (R80). All five stand beside each command: a command
ignores some of them (R21), but no bit of the descriptor is dropped. -/
structure Operands where
  /-- `dst_addr_valid`: read by `ENCODE` only. -/
  dstAddrValid : Bool
  /-- `in_len`: how many bytes of `IBUF` are meaningful, a byte count (R82). -/
  inLen : Nat
  /-- `port`: the listen port of `DECODE`, the destination port of `ENCODE`. -/
  port : Half
  /-- `src_port`: read by `ENCODE` only. -/
  srcPort : Half
  /-- `dst_addr`: read by `ENCODE` when `dst_addr_valid` is 1. -/
  dstAddr : Addr
  deriving DecidableEq, Repr

/-- The command set, complete (R226). -/
inductive Instr where
  /-- `DECODE` (R160): validate and decapsulate the datagram in `IBUF`. -/
  | decode (c : Operands)
  /-- `ENCODE` (R180): build a datagram around the payload in `IBUF`. -/
  | encode (c : Operands)
  /-- `CSUM` (R130): the Internet checksum of a byte range of `IBUF`. -/
  | csum (c : Operands)
  deriving DecidableEq, Repr

/-- The operand fields of a command. -/
def Instr.operands : Instr → Operands
  | .decode c => c
  | .encode c => c
  | .csum c => c

end Sys2Proof
end

