-- ==== Sys2Proof/WellFormed.lean ====
section
/-!
DEFINITION. Which commands a descriptor can spell: `in_len` is a 16-bit field (30_encoding.md R80), so
its value lies in 0 to 65535. Every other operand has the width of its field by its type.
-/

namespace Sys2Proof

/-- `in_len` fits its field (R80: "number of meaningful bytes in `IBUF`, 0 to 65535"). -/
def Instr.wellFormed (i : Instr) : Bool := decide (i.operands.inLen ≤ 65535)

end Sys2Proof
end

