-- ==== Sys2Proof/Decode.lean ====
section
/-!
DEFINITION. The command descriptor (30_encoding.md R80), the table that selects a command (R81), the
decoder, which is total and rejects reserved descriptors by name (R85), and the encoder. A descriptor is
a 96-bit value, not a byte sequence (R51).
-/

namespace Sys2Proof

/-- Why a descriptor is reserved (R85, U1 to U3): the model's names for one refusal of the spec. -/
inductive ReservedReason where
  /-- `op = 11` (U1). -/
  | opcode
  /-- `raw = 0` (R84, U2). -/
  | rawClear
  /-- `rsv` is not 0 (U3). -/
  | rsvSet
  deriving DecidableEq, Repr

/-- A descriptor from its three words: `W0` is bits 31:0, `W1` bits 63:32, `W2` bits 95:64 (R80). -/
def ofWords (w0 w1 w2 : Addr) : Descriptor := w2 ++ w1 ++ w0

/-- `W0 = CMD[31:0]`, also `R0` of a result. -/
def word0 (d : Descriptor) : Addr := d.extractLsb' 0 32

/-- `W1 = CMD[63:32]`, also `R1` of a result. -/
def word1 (d : Descriptor) : Addr := d.extractLsb' 32 32

/-- `W2 = CMD[95:64]`, also `R2` of a result. -/
def word2 (d : Descriptor) : Addr := d.extractLsb' 64 32

/-- `op`, bits 1:0. -/
def cmdOp (d : Descriptor) : BitVec 2 := d.extractLsb' 0 2

/-- `raw`, bit 2 (R84). -/
def cmdRaw (d : Descriptor) : Bool := d.getLsbD 2

/-- `rsv`, bits 15:4. -/
def cmdRsv (d : Descriptor) : BitVec 12 := d.extractLsb' 4 12

/-- The operand fields (R80, R82): each is the plain unsigned value of its bits. -/
def operandsOf (d : Descriptor) : Operands where
  dstAddrValid := d.getLsbD 3
  inLen := (d.extractLsb' 16 16).toNat
  port := d.extractLsb' 32 16
  srcPort := d.extractLsb' 48 16
  dstAddr := d.extractLsb' 64 32

/-- The bits of `W0` that select a command: `op`, `raw` and `rsv` (R81). -/
def selectMask : Addr := 0x0000FFF7#32

/-- `W0 & mask` of `DECODE` (R81). -/
def decodeMatch : Addr := 0x00000004#32

/-- `W0 & mask` of `ENCODE` (R81). -/
def encodeMatch : Addr := 0x00000005#32

/-- `W0 & mask` of `CSUM` (R81). -/
def csumMatch : Addr := 0x00000006#32

/-- Which of R85's three conditions a reserved descriptor meets; the first of them, where it meets
several. DESIGN CHOICE (log entry 11): the spec has one refusal and no order among the three. Safe. -/
def reservedReason (d : Descriptor) : ReservedReason :=
  if cmdOp d = 3#2 then .opcode else if cmdRaw d = false then .rawClear else .rsvSet

/-- The decoder (R81, R85): total on descriptors. -/
def decodeDescriptor (d : Descriptor) : Except ReservedReason Instr :=
  if word0 d &&& selectMask = decodeMatch then .ok (.decode (operandsOf d))
  else if word0 d &&& selectMask = encodeMatch then .ok (.encode (operandsOf d))
  else if word0 d &&& selectMask = csumMatch then .ok (.csum (operandsOf d))
  else .error (reservedReason d)

/-- The `op` field of a command (R80). -/
def opOf : Instr → BitVec 2
  | .decode _ => 0b00#2
  | .encode _ => 0b01#2
  | .csum _ => 0b10#2

/-- A descriptor with `raw = 1` and `rsv = 0` from its other fields (R80, R104). -/
def packOperands (op : BitVec 2) (c : Operands) : Descriptor :=
  c.dstAddr ++ c.srcPort ++ c.port ++ BitVec.ofNat 16 c.inLen ++ 0#12
    ++ BitVec.ofBool c.dstAddrValid ++ 1#1 ++ op

/-- The encoder: the descriptor of a well-formed command (R80). -/
def encodeDescriptor (i : Instr) : Descriptor := packOperands (opOf i) i.operands

/-- The command the decoder reads from a descriptor given as a number whose bit 0 is bit 0 of `W0`,
every bit at `nbits` and above being 0. -/
def decodeTableWord (nbits w : Nat) : Option Instr :=
  match decodeDescriptor (BitVec.ofNat 96 (w % 2 ^ nbits)) with
  | .ok i => some i
  | .error _ => none

end Sys2Proof
end

