-- ==== Sys2Proof/Machine/State.lean ====
section
/-!
DEFINITION. The state of the block and of the ports the host drives (10_state.md), the reasons a step
can stop, and the state after reset (R41). The block has no register, program counter, flag or mode
(R20, R22, R24, R25); what it has is its inputs, its two buffers and the in-flight transaction.
-/

namespace Sys2Proof.Machine

/-- A buffer as address and byte pairs, addresses strictly rising, none of them equal to what an unlisted
address reads as. -/
abbrev Memory := List Host.Cell

/-- The in-flight transaction (R31, R34): made when a command is accepted, gone when its result is
delivered. While there is one the block is busy. -/
inductive Txn where
  /-- Accepted, the descriptor latched (R66); no result yet. -/
  | running (cmd : Descriptor)
  /-- The result is offered with `rsp_valid = 1`, and the host has not taken it yet. -/
  | offered (rsp : Descriptor)
  deriving DecidableEq, Repr

/-- The state: configuration inputs, the ports the host drives, the two buffers, the transaction. -/
structure State where
  /-- The configuration inputs (R25): inputs, written by no command. -/
  cfg : Config
  /-- `rst` (R33, R230). -/
  rst : Bool
  /-- `cmd_valid` (R33, R34). -/
  cmdValid : Bool
  /-- `cmd`, the descriptor on the command port (R80). -/
  cmd : Descriptor
  /-- `rsp_ready` (R33, R34). -/
  rspReady : Bool
  /-- `IBUF`, addresses 0 to 65534 (R28). -/
  ibuf : Memory
  /-- The bytes of `OBUF` whose contents the spec specifies (R29); every other one is a free value. -/
  obuf : Memory
  /-- The MODEL's own field: which free values the unlisted bytes of `OBUF` have (log entry 5). -/
  obufEpoch : Nat
  /-- The in-flight transaction, none while the block is idle (R31, R41). -/
  txn : Option Txn
  /-- The MODEL's own field: the result the host took last (R34, R37), none before the first (log
  entry 8). -/
  delivered : Option Descriptor
  deriving DecidableEq, Repr

/-- Why the machine stops with a fault. No command raises either (R64, R194). -/
inductive Fault where
  /-- An access to `OBUF` where it has no byte: the spec gives the addresses (R29), the fault is the
  model's (DESIGN CHOICE). Raised by
  `State.emit` and by the host's accesses to `OBUF`; safe (log entry 19). -/
  | obufAddress
  /-- The host fills `IBUF` beyond address 65534, an address that does not exist (R28). Raised by
  `State.fill`; safe (log entry 19). -/
  | ibufAddress
  deriving DecidableEq, Repr

/-- Why a step or a host action has no meaning (R39, R208, decision D14). -/
inductive Refusal where
  /-- An instruction that has no meaning yet; raised by no arm of `exec`. Safe. -/
  | notModelled (mnemonic : String)
  /-- The descriptor is reserved (R85, U1 to U3). Raised by `step`; safe. -/
  | reservedDescriptor (why : ReservedReason)
  /-- `in_len` above `MAX_DGRAM` for `DECODE` or `CSUM`, a broken host duty (R37, U4). Raised by
  `execDecode` and `execCsum`; safe. -/
  | inLenAboveMaxDgram
  /-- The host changes the configuration while a command is in flight (R240, U5). Raised by `hostAct`;
  safe. -/
  | configChangedInFlight
  /-- The host writes `IBUF` while a command is in flight (R237, U6). Raised by `hostAct`; safe. -/
  | ibufWrittenInFlight
  /-- The host writes `OBUF` while a command is in flight (R37). Raised by `hostAct`; safe. -/
  | obufWrittenInFlight
  /-- A program line whose `len` is above 65535, which no descriptor spells (R80, R104; log entry 21).
  Raised by `Line.run`; safe. -/
  | lineNotEncodable
  deriving DecidableEq, Repr

/-- The machine right after reset with the configuration inputs at `cfg` (R41): idle, nothing in flight,
`OBUF` and `IBUF` with nothing listed. The levels of the other inputs are a DESIGN CHOICE (log entry
3): no command presented, the host ready for results, `rst` released. -/
def State.resetWith (cfg : Config) : State where
  cfg := cfg
  rst := false
  cmdValid := false
  cmd := 0#96
  rspReady := true
  ibuf := []
  obuf := []
  obufEpoch := 0
  txn := none
  delivered := none

/-- The machine right after reset; the configuration inputs have the vectors' default values (DESIGN
CHOICE, log entry 2: inputs have no reset value, R26). -/
def State.reset : State := State.resetWith Config.vectorDefaults

end Sys2Proof.Machine
end

