-- ==== Sys2Proof/Machine/Operands.lean ====
section
/-!
DEFINITION. How fields are read from and written to byte sequences (00_scope.md R12 to R14, 20_memory.md
R50, R52), and the layouts of the IPv4 header, the UDP header and the pseudo-header (30_encoding.md R90,
R91, R96, R100). Every read carries the proof that it lies inside the sequence (R10).
-/

namespace Sys2Proof.Machine

/-- `b[7:4]` as a number (R9). -/
def hiNibble (b : Byte) : Nat := (b.extractLsb' 4 4).toNat

/-- `b[3:0]` as a number (R9). -/
def loNibble (b : Byte) : Nat := (b.extractLsb' 0 4).toNat

/-- The big-endian 16-bit field at offset `i` (R12, R50). -/
def be16 (B : Bytes) (i : Nat) (h : i + 1 < B.length := by omega) : Half := B[i] ++ B[i + 1]

/-- The big-endian 32-bit field at offset `i` (R12, R50). -/
def be32 (B : Bytes) (i : Nat) (h : i + 3 < B.length := by omega) : Addr :=
  B[i] ++ B[i + 1] ++ B[i + 2] ++ B[i + 3]

/-- The two bytes of a 16-bit field, high byte first (R12). -/
def enc16 (v : Half) : Bytes := [v.extractLsb' 8 8, v.extractLsb' 0 8]

/-- The four bytes of a 32-bit field, high byte first (R12). -/
def enc32 (v : Addr) : Bytes :=
  [v.extractLsb' 24 8, v.extractLsb' 16 8, v.extractLsb' 8 8, v.extractLsb' 0 8]

/-- The address written `a.b.c.d` (R14). -/
def dotted (a b c d : Byte) : Addr := a ++ b ++ c ++ d

/-- UDP's protocol number, 17 (R8). -/
def udpProtocol : Byte := 17#8

/-- `hlen = 4 * IHL`, the IPv4 header length in bytes that a first byte declares (R91). -/
def headerLength (b : Byte) : Nat := 4 * loNibble b

/-- The pseudo-header (R100), 12 bytes, never transmitted. -/
def pseudo (src dst : Addr) (udpLen : Half) : Bytes :=
  enc32 src ++ enc32 dst ++ [0#8, udpProtocol] ++ enc16 udpLen

end Sys2Proof.Machine
end

