-- ==== Sys2Proof/Machine/Flags.lean ====
section
/-!
DEFINITION. The block has no flags (10_state.md R24); the one condition it reports is the status of the
result. Here are the error kinds with their classes and codes (60_exceptions.md R200, R201), the outcome
of a command (R39) and its packing into the result descriptor (30_encoding.md R86).
-/

namespace Sys2Proof.Machine

/-- The four classes of error kinds (R200). -/
inductive ErrorClass where
  | structural
  | integrity
  | policy
  | capacity
  deriving DecidableEq, Repr

/-- The nine error kinds (R200), a closed enumeration. -/
inductive ErrorKind where
  | tooShort
  | badVersion
  | badHeaderLength
  | badIpChecksum
  | lengthMismatch
  | unsupportedProtocol
  | portMismatch
  | badUdpChecksum
  | payloadTooLarge
  deriving DecidableEq, Repr

/-- The class of each kind (R200). -/
def ErrorKind.errorClass : ErrorKind → ErrorClass
  | .tooShort => .structural
  | .badVersion => .policy
  | .badHeaderLength => .structural
  | .badIpChecksum => .integrity
  | .lengthMismatch => .structural
  | .unsupportedProtocol => .policy
  | .portMismatch => .policy
  | .badUdpChecksum => .integrity
  | .payloadTooLarge => .capacity

/-- The status code of each kind (R201); 0 is `OK`. -/
def ErrorKind.code : ErrorKind → BitVec 4
  | .tooShort => 1#4
  | .badVersion => 2#4
  | .badHeaderLength => 3#4
  | .badIpChecksum => 4#4
  | .lengthMismatch => 5#4
  | .unsupportedProtocol => 6#4
  | .portMismatch => 7#4
  | .badUdpChecksum => 8#4
  | .payloadTooLarge => 9#4

/-- The outcome of a command that has a meaning (R39). -/
inductive Result where
  /-- `Ok(DecodeResult { payload, src_addr, src_port })`. -/
  | decoded (payload : Bytes) (srcAddr : Addr) (srcPort : Half)
  /-- `Ok(EncodeResult { datagram })`. -/
  | encoded (datagram : Bytes)
  /-- `Ok(CsumResult { csum })`. -/
  | summed (csum : Half)
  /-- `Err(kind)`. -/
  | err (kind : ErrorKind)
  deriving DecidableEq, Repr

/-- `status`, bits 3:0 of a result descriptor (R86). -/
def rspStatus (r : Descriptor) : BitVec 4 := r.extractLsb' 0 4

/-- Bits 15:4 of a result descriptor, always 0 (R86). -/
def rspZero (r : Descriptor) : BitVec 12 := r.extractLsb' 4 12

/-- `out_len`, bits 31:16 of a result descriptor (R86). -/
def rspOutLen (r : Descriptor) : Half := r.extractLsb' 16 16

/-- `src_port`, bits 47:32 of a result descriptor (R86). -/
def rspSrcPort (r : Descriptor) : Half := r.extractLsb' 32 16

/-- `csum`, bits 63:48 of a result descriptor (R86). -/
def rspCsum (r : Descriptor) : Half := r.extractLsb' 48 16

/-- `src_addr`, bits 95:64 of a result descriptor (R86). -/
def rspSrcAddr (r : Descriptor) : Addr := r.extractLsb' 64 32

/-- A result descriptor from its fields (R86). -/
def packResult (status : BitVec 4) (outLen srcPort csum : Half) (srcAddr : Addr) : Descriptor :=
  srcAddr ++ csum ++ srcPort ++ outLen ++ 0#12 ++ status

/-- The packing of an outcome into `rsp` (R86): fields a command does not produce are 0. -/
def Result.pack : Result → Descriptor
  | .decoded payload srcAddr srcPort =>
    packResult 0#4 (BitVec.ofNat 16 payload.length) srcPort 0#16 srcAddr
  | .encoded datagram => packResult 0#4 (BitVec.ofNat 16 datagram.length) 0#16 0#16 0#32
  | .summed csum => packResult 0#4 0#16 0#16 csum 0#32
  | .err kind => packResult kind.code 0#16 0#16 0#16 0#32

/-- The bytes an outcome puts in `OBUF[0 : out_len]` (R86); none where `OBUF` is not written. -/
def Result.output : Result → Option Bytes
  | .decoded payload _ _ => some payload
  | .encoded datagram => some datagram
  | .summed _ => none
  | .err _ => none

end Sys2Proof.Machine
end

