-- ==== Sys2Proof/Machine/Ops.lean ====
section
/-!
DEFINITION. The named operations over the buffers, the ports and the transaction: reading and writing
`IBUF` and `OBUF` (20_memory.md), accepting a command and delivering a result (10_state.md R34), raising
an error and what follows it (60_exceptions.md R212, R214), and reset (70_reset_and_hazards.md R230, R231).
-/

namespace Sys2Proof.Machine

/-! ### Buffers -/

/-- The canonical form of a buffer of `size` bytes whose unlisted addresses read as `unlisted` (`none`
where that is a free value): addresses strictly rising, all below `size`, no entry equal to
`unlisted`. -/
def Memory.wf (size : Nat) (unlisted : Option Byte) (m : Memory) : Bool :=
  decide (m.Pairwise (fun c c' => c.1 < c'.1)) &&
    m.all (fun c => decide (c.1 < size) && decide (some c.2 ≠ unlisted))

/-- The byte listed at an address. -/
def Memory.at? : Memory → Nat → Option Byte
  | [], _ => none
  | (k, b) :: m, a => if k = a then some b else Memory.at? m a

/-- The bytes at `a, a + 1, ..., a + n - 1` of a buffer in canonical form that lists nothing below `a`. -/
def Memory.slice (unlisted : Byte) : Memory → Nat → Nat → Bytes
  | _, _, 0 => []
  | [], a, n + 1 => unlisted :: Memory.slice unlisted [] (a + 1) n
  | (k, b) :: m, a, n + 1 =>
    if k = a then b :: Memory.slice unlisted m (a + 1) n
    else unlisted :: Memory.slice unlisted ((k, b) :: m) (a + 1) n

/-- The entries that hold a byte sequence at addresses `a, a + 1, ...`, none equal to `unlisted`. -/
def Memory.cellsFrom (unlisted : Option Byte) : Nat → Bytes → Memory
  | _, [] => []
  | a, b :: bs =>
    if some b = unlisted then Memory.cellsFrom unlisted (a + 1) bs
    else (a, b) :: Memory.cellsFrom unlisted (a + 1) bs

/-- The buffer with `bytes` written at addresses `0 .. bytes.length - 1`, everything else as before. -/
def Memory.overlay (unlisted : Option Byte) (bytes : Bytes) (m : Memory) : Memory :=
  Memory.cellsFrom unlisted 0 bytes ++ m.filter (fun c => decide (bytes.length ≤ c.1))

/-- The number of addresses of `IBUF`: 0 to 65534 (R28). -/
def ibufSize : Nat := 65535

/-- What an unlisted byte of `IBUF` reads as. DESIGN CHOICE (log entry 4): `IBUF` is the host's and reset
does not touch it (R41). Unsafe only for a statement about bytes the host has not filled. -/
def ibufUnlisted : Byte := 0#8

/-- The byte of `IBUF` at an address. -/
def State.ibufByte (s : State) (a : Nat) : Byte := (Memory.at? s.ibuf a).getD ibufUnlisted

/-- `IBUF[0 : n]`, what a command with `in_len = n` may read (R28). -/
def State.input (s : State) (n : Nat) : Bytes := Memory.slice ibufUnlisted s.ibuf 0 n

/-- The number of addresses of `OBUF`: 0 to `MAX_DGRAM - 1` (R29). -/
def State.capacity (s : State) : Nat := s.cfg.maxDgram.toNat

/-- The byte `OBUF` holds at an address: the one last written, or the free value where the spec leaves
it unspecified (R29, R41). -/
def State.obufByte (s : State) (a : Nat) : Byte :=
  (Memory.at? s.obuf a).getD (Config.obufFree s.obufEpoch a)

/-- `OBUF` after a successful command that wrote `bytes`: `OBUF[0 : out_len]` holds them, every byte
beyond is unspecified (R29, decision D13). -/
def State.putObuf (s : State) (bytes : Bytes) : State :=
  { s with obuf := Memory.cellsFrom none 0 bytes, obufEpoch := s.obufEpoch + 1 }

/-- `OBUF` with every byte unspecified. -/
def State.loseObuf (s : State) : State := { s with obuf := [], obufEpoch := s.obufEpoch + 1 }

/-! ### The ports the block drives -/

/-- A command is in flight (R34). -/
def State.busy (s : State) : Bool := s.txn.isSome

/-- `cmd_ready`: 0 while busy (R34) and while `rst` is asserted (R230). -/
def State.cmdReady (s : State) : Bool := !s.rst && !s.busy

/-- `rsp_valid`: a result is offered; 0 while `rst` is asserted (R230). -/
def State.rspValid (s : State) : Bool :=
  match s.txn with
  | some (.offered _) => !s.rst
  | _ => false

/-- The delivery of a result happens now: `rsp_valid` and `rsp_ready` are both 1 (R34). -/
def State.delivering (s : State) : Bool := s.rspValid && s.rspReady

/-- `rsp`: the result at its delivery (R34). At any other moment it is unspecified, whether a command is
in flight, its result offered and not taken included (R239, U10), or nothing is (R41): the free value
`any`, an argument being the model's form of it (DESIGN CHOICE, log entry 10). -/
def State.rspPort (s : State) (any : Descriptor) : Descriptor :=
  match s.txn with
  | some (.offered r) => if s.delivering then r else any
  | _ => any

/-- `out_len` of the last result delivered. Where none was delivered yet there is no `out_len`, and the spec
says nothing of a line `IBUF <- OBUF[0:out_len]` then: 0, so that nothing is copied (DESIGN CHOICE, log
entry 23). -/
def State.lastOutLen (s : State) : Nat :=
  match s.delivered with
  | none => 0
  | some r => (rspOutLen r).toNat

/-- `OBUF` has a byte for the host at an address: below `MAX_DGRAM` (R29), or, until a command is in flight,
in `OBUF[0 : out_len]` of the last result (R239), which a smaller `MAX_DGRAM` does not take away. -/
def State.hasObuf (s : State) (a : Nat) : Bool :=
  decide (a < s.capacity) || (!s.busy && decide (a < s.lastOutLen))

/-- What the host sees of `OBUF` at an address. Where there is no byte the access is a fault (DESIGN CHOICE,
log entry 19); while a command is in flight the byte is unspecified (R239, U10), the free value `any`
(DESIGN CHOICE, log entry 10). -/
def State.hostObuf (s : State) (a : Nat) (any : Byte) : Except Fault Byte :=
  if s.hasObuf a then .ok (if s.busy then any else s.obufByte a) else .error .obufAddress

/-! ### Acceptance, delivery, reset -/

/-- Acceptance (R34, R66): the descriptor is latched and the command in flight. DESIGN CHOICE (log entry
7): the host takes the accepted descriptor off the port. -/
def State.accept (s : State) : State :=
  { s with cmdValid := false, txn := some (.running s.cmd) }

/-- The command the block is to run: the one in flight, or the one the host presents to an idle block,
which is accepted first. None where a result waits to be taken or nothing is presented. -/
def State.fetch (s : State) : Option (Descriptor × State) :=
  match s.txn with
  | some (.running d) => some (d, s)
  | some (.offered _) => none
  | none => if s.cmdValid then some (s.cmd, s.accept) else none

/-- The result of the command in flight is out (R34): delivered where the host is ready for it, else
offered until it is. -/
def State.offer (s : State) (r : Descriptor) : State :=
  if s.rspReady then { s with txn := none, delivered := some r }
  else { s with txn := some (.offered r) }

/-- An offered result is delivered once the host is ready (R34); with nothing offered, or a host that is
not ready, nothing happens. -/
def State.deliver (s : State) : State :=
  match s.txn with
  | some (.offered r) => s.offer r
  | _ => s

/-- What `rst` asserted does (R230, R231, R41): a command in flight is abandoned without a result and leaves
`OBUF` unspecified; an idle block has nothing to reset. -/
def State.resetBlock (s : State) : State :=
  match s.txn with
  | none => s
  | some _ => { s.loseObuf with txn := none }

/-! ### Ending a command -/

/-- Raising an error (R212), the one operation every error goes through: the command ends, its result is
the kind's code with every other field 0, and nothing else changes. There is nothing to return from
(R214): the block takes the next command as after any other. -/
def State.raiseError (s : State) (kind : ErrorKind) : State := s.offer (Result.err kind).pack

/-- A successful command's output: `bytes` to `OBUF[0 : out_len]`, then the result. A write outside
`OBUF` is a fault; no command makes one (R64, R194). -/
def State.emit (s : State) (bytes : Bytes) (r : Descriptor) : Host.Outcome State Fault Refusal :=
  if bytes.length ≤ s.capacity then .next ((s.putObuf bytes).offer r) else .fault .obufAddress

/-- How a command ends (R86): its outcome packed into `rsp`, its output written to `OBUF`. `CSUM` writes no
byte of `OBUF` (R130), and neither does an error (R59, R212). -/
def State.settle (s : State) (r : Result) : Host.Outcome State Fault Refusal :=
  match r with
  | .decoded payload _ _ => s.emit payload r.pack
  | .encoded datagram => s.emit datagram r.pack
  | .summed _ => .next (s.offer r.pack)
  | .err kind => .next (s.raiseError kind)

/-- A command's outcome, or its refusal (R39). -/
def State.conclude (s : State) (o : Except Refusal Result) : Host.Outcome State Fault Refusal :=
  match o with
  | .ok r => s.settle r
  | .error why => .refused why

/-- The host duty of `DECODE` and `CSUM`: `in_len <= MAX_DGRAM`, else the command is refused (R37, U4). -/
def underDuty (cfg : Config) (inLen : Nat) (r : Result) : Except Refusal Result :=
  if inLen ≤ cfg.maxDgram.toNat then .ok r else .error .inLenAboveMaxDgram

end Sys2Proof.Machine
end

