-- ==== Sys2Proof/Machine/Checksum.lean ====
section
/-!
DEFINITION. The Internet-checksum generator (40_checksum.md) and the command `CSUM`.
-/

namespace Sys2Proof.Machine

/-- The 16-bit words of a byte sequence (R121): high byte first, an odd last byte padded with `00`. -/
def words : Bytes → List Half
  | [] => []
  | [b] => [b ++ 0#8]
  | hi :: lo :: X => (hi ++ lo) :: words X

/-- The natural sum of the words of a byte sequence (R123). -/
def wordSum (X : Bytes) : Nat := ((words X).map BitVec.toNat).sum

/-- `Fold` with a bound on its rounds. -/
def foldRounds : Nat → Nat → Nat
  | 0, t => t
  | k + 1, t => if t ≤ 0xFFFF then t else foldRounds k (t % 65536 + t / 65536)

/-- `Fold(t)` (R122): carries folded back until none remains. The argument falls in every round, so `t`
rounds are enough. -/
def fold (t : Nat) : Nat := foldRounds t t

/-- `Sum1c(X)` (R123). -/
def sum1c (X : Bytes) : Nat := fold (wordSum X)

/-- `Csum(X) = 0xFFFF - Sum1c(X)` (R124), the generated checksum. -/
def csum (X : Bytes) : Half := BitVec.ofNat 16 (0xFFFF - sum1c X)

/-- `UdpStore(c)` (R125): for the UDP checksum only. -/
def udpStore (c : Half) : Half := if c = 0x0000#16 then 0xFFFF#16 else c

/-- `Verify(X)` (R126): the folded sum, the received field included, is `0xFFFF`. -/
def verify (X : Bytes) : Bool := decide (sum1c X = 0xFFFF)

/-- `CSUM` as a function of its input bytes (R130): `UdpStore` is not applied, no error exists. -/
def runCsum (X : Bytes) : Result := .summed (csum X)

/-- The outcome of `CSUM` (R39), refused where the host breaks its duty (R37). -/
def csumOutcome (cfg : Config) (c : Operands) (X : Bytes) : Except Refusal Result :=
  underDuty cfg c.inLen (runCsum X)

/-- `CSUM` (R130). -/
def execCsum (c : Operands) (s : State) : Host.Outcome State Fault Refusal :=
  s.conclude (csumOutcome s.cfg c (s.input c.inLen))

end Sys2Proof.Machine
end

