-- ==== Sys2Proof/Machine/Decapsulate.lean ====
section
/-!
DEFINITION. The IPv4 header parser (41_ipv4_parse.md, steps 1 to 6), the UDP header parser
(42_udp_parse.md, steps 7 to 10) and the command `DECODE`. The checks stand in the source's order and the
first that fails decides (R205). There are no others (R93, R150).
-/

namespace Sys2Proof.Machine

/-- What the IPv4 unit hands on (R147). -/
structure IpOk where
  hlen : Nat
  srcAddr : Addr
  dstAddr : Addr
  deriving DecidableEq, Repr

/-- `IpParse(B)` (R140): steps 1 to 6. -/
def ipParse (B : Bytes) : Except ErrorKind IpOk :=
  -- step 1, R141
  if h : B.length < 20 then .error .tooShort
  -- step 2, R142
  else if hiNibble B[0] ≠ 4 then .error .badVersion
  -- step 3, R143
  else if ¬ (headerLength B[0] ≤ B.length ∧ 20 ≤ headerLength B[0]) then .error .badHeaderLength
  -- step 4, R144
  else if verify (B.take (headerLength B[0])) = false then .error .badIpChecksum
  -- step 5, R145
  else if (be16 B 2).toNat ≠ B.length then .error .lengthMismatch
  -- step 6, R146
  else if B[9] ≠ udpProtocol then .error .unsupportedProtocol
  else .ok { hlen := headerLength B[0], srcAddr := be32 B 12, dstAddr := be32 B 16 }

/-- The byte stream step 10 sums (R164): the pseudo-header, the UDP header with its checksum field zeroed,
the payload. -/
def udpStream (B : Bytes) (ip : IpOk) (udpLen : Half) : Bytes :=
  pseudo ip.srcAddr ip.dstAddr udpLen
    ++ ((B.drop ip.hlen).take 6 ++ [0x00#8, 0x00#8] ++ B.drop (ip.hlen + 8))

/-- Steps 7 to 10 and the successful result (R160, R168). -/
def udpParse (listenPort : Half) (B : Bytes) (ip : IpOk) : Result :=
  -- step 7, R161
  if h : B.length - ip.hlen < 8 then .err .tooShort
  -- step 8, R162
  else if (be16 B (ip.hlen + 4)).toNat ≠ B.length - ip.hlen then .err .lengthMismatch
  -- step 9, R163
  else if be16 B (ip.hlen + 2) ≠ listenPort then .err .portMismatch
  -- step 10, R164 and R165
  else if be16 B (ip.hlen + 6) ≠ 0x0000#16 ∧
      be16 B (ip.hlen + 6) ≠ udpStore (csum (udpStream B ip (be16 B (ip.hlen + 4)))) then
    .err .badUdpChecksum
  -- R168
  else .decoded ((B.drop (ip.hlen + 8)).take ((be16 B (ip.hlen + 4)).toNat - 8))
    ip.srcAddr (be16 B ip.hlen)

/-- `Decode(listen_port, B)` (R160). -/
def runDecode (listenPort : Half) (B : Bytes) : Result :=
  match ipParse B with
  | .error kind => .err kind
  | .ok ip => udpParse listenPort B ip

/-- The outcome of `DECODE` (R39), refused where the host breaks its duty (R37). -/
def decodeOutcome (cfg : Config) (c : Operands) (B : Bytes) : Except Refusal Result :=
  underDuty cfg c.inLen (runDecode c.port B)

/-- `DECODE` (R160). -/
def execDecode (c : Operands) (s : State) : Host.Outcome State Fault Refusal :=
  s.conclude (decodeOutcome s.cfg c (s.input c.inLen))

end Sys2Proof.Machine
end

