-- ==== Sys2Proof/Machine/Encapsulate.lean ====
section
/-!
DEFINITION. The encapsulator and framing engine (43_encode.md) and the command `ENCODE`.
-/

namespace Sys2Proof.Machine

/-- The destination address (R183): the command's, or the configured default. -/
def resolvedDst (cfg : Config) (c : Operands) : Addr :=
  if c.dstAddrValid then c.dstAddr else cfg.defaultDstAddr

/-- The UDP length of a payload of `n` bytes, `8 + n` (R184). -/
def udpLength (n : Nat) : Half := BitVec.ofNat 16 (8 + n)

/-- The UDP header around a checksum (R184). -/
def udpHeader (c : Operands) (n : Nat) (checksum : Half) : Bytes :=
  enc16 c.srcPort ++ enc16 c.port ++ enc16 (udpLength n) ++ enc16 checksum

/-- The UDP checksum (R185): over pseudo-header, header with the field zeroed, and payload, in its stored
form. -/
def udpChecksum (cfg : Config) (c : Operands) (P : Bytes) : Half :=
  udpStore (csum (pseudo cfg.srcAddr (resolvedDst cfg c) (udpLength P.length)
    ++ udpHeader c P.length 0x0000#16 ++ P))

/-- The IPv4 header around a checksum (R187). -/
def ipHeader (cfg : Config) (c : Operands) (n : Nat) (checksum : Half) : Bytes :=
  [0x45#8, cfg.tos] ++ enc16 (BitVec.ofNat 16 (20 + (8 + n))) ++ enc16 cfg.ident
    ++ enc16 cfg.flagsFrag ++ [cfg.ttl, udpProtocol] ++ enc16 checksum
    ++ enc32 cfg.srcAddr ++ enc32 (resolvedDst cfg c)

/-- The IPv4 header checksum (R188): over the header with the field zeroed; no substitution. -/
def ipChecksum (cfg : Config) (c : Operands) (n : Nat) : Half :=
  csum (ipHeader cfg c n 0x0000#16)

/-- The datagram (R189): IPv4 header, UDP header, payload. -/
def datagram (cfg : Config) (c : Operands) (P : Bytes) : Bytes :=
  ipHeader cfg c P.length (ipChecksum cfg c P.length)
    ++ udpHeader c P.length (udpChecksum cfg c P) ++ P

/-- `Encode(cfg, cmd, P)` (R180): the size check (R182) on natural numbers, then the datagram. -/
def runEncode (cfg : Config) (c : Operands) (P : Bytes) : Result :=
  if cfg.maxDgram.toNat < 8 + P.length + 20 then .err .payloadTooLarge
  else .encoded (datagram cfg c P)

/-- The outcome of `ENCODE` (R39); it has no host duty on `in_len` (R37). -/
def encodeOutcome (cfg : Config) (c : Operands) (P : Bytes) : Except Refusal Result :=
  .ok (runEncode cfg c P)

/-- `ENCODE` (R180). -/
def execEncode (c : Operands) (s : State) : Host.Outcome State Fault Refusal :=
  s.conclude (encodeOutcome s.cfg c (s.input c.inLen))

end Sys2Proof.Machine
end

