-- ==== Sys2Proof/Machine/Dispatch.lean ====
section
/-!
DEFINITION. The dispatch of a command to its meaning, one arm per constructor.
-/

namespace Sys2Proof.Machine

/-- The meaning of a command in flight. -/
def exec (i : Instr) (s : State) : Host.Outcome State Fault Refusal :=
  match i with
  | .decode c => Sys2Proof.Machine.execDecode c s
  | .encode c => Sys2Proof.Machine.execEncode c s
  | .csum c => Sys2Proof.Machine.execCsum c s

end Sys2Proof.Machine
end

