-- ==== Sys2Proof/Machine/Step.lean ====
section
/-!
DEFINITION. One step (10_state.md R38): a whole command, from its acceptance to its result. With `rst`
asserted the block is reset (70_reset_and_hazards.md R230, R231), the level being sampled once, at the
beginning of the step (DESIGN CHOICE, log entry 20); with nothing to run it waits.
-/

namespace Sys2Proof.Machine

/-- One step of the block. -/
def step (s : State) : Host.Outcome State Fault Refusal :=
  if s.rst then .next s.resetBlock
  else
    match s.fetch with
    | none => .next s.deliver
    | some (d, s') =>
      match decodeDescriptor d with
      | .ok i => exec i s'
      | .error why => .refused (.reservedDescriptor why)

/-- The host presents the descriptor `w` (bit 0 of `w` is bit 0 of `W0`, bits at `nbits` and above are 0)
to an idle block out of reset, so that the very next step accepts and runs it (log entry 14). -/
def State.withFetchWord (s : State) (nbits w : Nat) : State :=
  { s with
    rst := false
    txn := none
    cmdValid := true
    cmd := BitVec.ofNat 96 (w % 2 ^ nbits) }

end Sys2Proof.Machine
end

