-- ==== Sys2Proof/Machine/HostPort.lean ====
section
/-!
DEFINITION. The host (10_state.md R37): what it may do between steps, as functions on State, each
refused where it breaks a duty (R237 to R240), and the line programs of 30_encoding.md R104.
-/

namespace Sys2Proof.Machine

/-- What the host may do between steps (R34, R36, R37, R234). -/
inductive HostAction where
  /-- Drive the configuration inputs (R25, R240). -/
  | configure (cfg : Config)
  /-- Fill `IBUF[0 : bytes.length]` (R234). -/
  | fill (bytes : Bytes)
  /-- Write `OBUF[0 : bytes.length]`, which the host owns between commands (R36). -/
  | writeObuf (bytes : Bytes)
  /-- Copy `OBUF[0 : out_len]` of the last result to `IBUF` (R71, R104); before the first result nothing is
  copied (DESIGN CHOICE, log entry 23). -/
  | feedBack
  /-- Present a descriptor: `cmd_valid = 1` (R34); while a command is in flight too (log entry 24). -/
  | present (d : Descriptor)
  /-- Take the descriptor off the port: `cmd_valid = 0`. -/
  | withdraw
  /-- Drive `rsp_ready`. -/
  | ready (level : Bool)
  /-- Drive `rst` (R230). A pulse with no step in it resets nothing (DESIGN CHOICE, log entry 20). -/
  | drive (rst : Bool)
  /-- Let the handshake of a presented command happen now, so that what the host does next falls inside
  that command (R34, R231). -/
  | handshake
  deriving DecidableEq, Repr

/-- `IBUF` with `bytes` at its start; beyond address 65534 there is none (R28). -/
def State.fill (s : State) (bytes : Bytes) : Host.Outcome State Fault Refusal :=
  if bytes.length ≤ ibufSize then
    .next { s with ibuf := Memory.overlay (some ibufUnlisted) bytes s.ibuf }
  else .fault .ibufAddress

/-- `OBUF[0 : n]` as the host reads it after a delivery. -/
def State.output (s : State) (n : Nat) : Bytes := (List.range n).map s.obufByte

/-- What a host action does. While a command is in flight the configuration and both buffers are not the
host's to change (R37, R237, R240, U5, U6). `cmd` may change, with no effect on that command: R66 and R34
say so, R69 and R234 (5) call it a broken duty, and the model follows R66 (DESIGN CHOICE, log entry 24).
Driving `rst` changes the level only, which the next step samples: what a pulse with no step in it does is
open (R230, U11), and here it leaves the command in flight (DESIGN CHOICE, log entry 20). Driving
other configuration inputs between commands changes those inputs only: `OBUF` and the last result are as
before (R239, log entry 18). -/
def hostAct (a : HostAction) (s : State) : Host.Outcome State Fault Refusal :=
  match a with
  | .configure cfg =>
    if s.busy then .refused .configChangedInFlight
    else .next { s with cfg := cfg }
  | .fill bytes => if s.busy then .refused .ibufWrittenInFlight else s.fill bytes
  | .writeObuf bytes =>
    if s.busy then .refused .obufWrittenInFlight
    else if bytes.length ≤ s.capacity then .next { s with obuf := Memory.overlay none bytes s.obuf }
    else .fault .obufAddress
  | .feedBack =>
    if s.busy then .refused .ibufWrittenInFlight else s.fill (s.output s.lastOutLen)
  | .present d => .next { s with cmdValid := true, cmd := d }
  | .withdraw => .next { s with cmdValid := false }
  | .ready level => .next { s with rspReady := level }
  | .drive level => .next { s with rst := level }
  | .handshake => if s.cmdReady && s.cmdValid then .next s.accept else .next s

/-- A line of a program (R104). -/
inductive Line where
  | config (cfg : Config)
  | ibuf (bytes : Bytes)
  | ibufFromObuf
  | decode (listen : Half) (len : Nat)
  | encode (dst : Option Addr) (dport sport : Half) (len : Nat)
  | csum (len : Nat)
  deriving DecidableEq, Repr

/-- The command a line names (R104): `dst=default` gives `dst_addr_valid = 0` and `dst_addr = 0`, fields a
command ignores are 0; none for the lines that are no command. -/
def Line.command : Line → Option Instr
  | .config _ => none
  | .ibuf _ => none
  | .ibufFromObuf => none
  | .decode listen len =>
    some (.decode { dstAddrValid := false, inLen := len, port := listen, srcPort := 0#16, dstAddr := 0#32 })
  | .encode dst dport sport len =>
    some (.encode { dstAddrValid := dst.isSome, inLen := len, port := dport, srcPort := sport,
                    dstAddr := dst.getD 0#32 })
  | .csum len =>
    some (.csum { dstAddrValid := false, inLen := len, port := 0#16, srcPort := 0#16, dstAddr := 0#32 })

/-- The command a line assembles to. DESIGN CHOICE (log entry 21): the spec gives no assembly for a `len`
above 65535, which `in_len` cannot hold (R80), and the model gives none either; it truncates nothing. -/
def Line.assemble (l : Line) : Option Instr := l.command.filter Instr.wellFormed

/-- The host presents a descriptor and the block takes one step. DESIGN CHOICE (log entry 22): the host does
not wait. Where the block does not accept in that step (`rst` 1, or an earlier command in flight) or the
result is not taken (`rsp_ready` 0), the answer is the state after that one step all the same. -/
def issue (d : Descriptor) (s : State) : Host.Outcome State Fault Refusal :=
  match hostAct (.present d) s with
  | .next s' => step s'
  | .fault why => .fault why
  | .refused why => .refused why

/-- One line: a host action, or a command presented and run. A command line without an assembly is refused
(DESIGN CHOICE, log entry 21). -/
def Line.run (l : Line) (s : State) : Host.Outcome State Fault Refusal :=
  match l with
  | .config cfg => hostAct (.configure cfg) s
  | .ibuf bytes => hostAct (.fill bytes) s
  | .ibufFromObuf => hostAct .feedBack s
  | .decode .. | .encode .. | .csum .. =>
    match l.assemble with
    | none => .refused .lineNotEncodable
    | some i => issue (encodeDescriptor i) s

/-- A run (R44): the lines one after the other, stopping at the first fault or refusal. DESIGN CHOICE (log
entry 22): the spec says nothing of `rst` and `rsp_ready` in a program, no line drives them, and each
command line takes one step whatever they are. With `rst` 0, `rsp_ready` 1 and an idle block at the start
every line completes before the next, as R44 has it; at other levels a run may go on, or end, with a
command waiting or replaced on the port by the next line's, or a result not taken. -/
def runLines : List Line → State → Host.Outcome State Fault Refusal
  | [], s => .next s
  | l :: ls, s =>
    match l.run s with
    | .next s' => runLines ls s'
    | .fault why => .fault why
    | .refused why => .refused why

/-- The host loop over candidate ports (R105): one `DECODE` per port over the same `IBUF`. -/
def demux (ports : List Half) (len : Nat) : List Line := ports.map (fun p => .decode p len)

end Sys2Proof.Machine
end

