-- ==== Sys2Proof/Machine/Transact.lean ====
section
/-!
DEFINITION. The function `Exec` of 10_state.md R39, in the spec's own terms: the outcome of a descriptor
over a configuration and the bytes `IBUF[0 : in_len]`, with no state of a machine.
-/

namespace Sys2Proof.Machine

/-- `Exec cfg cmd B` (R39). -/
def transact (cfg : Config) (d : Descriptor) (B : Bytes) : Except Refusal Result :=
  match decodeDescriptor d with
  | .error why => .error (.reservedDescriptor why)
  | .ok (.decode c) => decodeOutcome cfg c B
  | .ok (.encode c) => encodeOutcome cfg c B
  | .ok (.csum c) => csumOutcome cfg c B

end Sys2Proof.Machine
end

