-- ==== Sys2Proof/Safety.lean ====
section
/-!
DEFINITION. What is true of the block in every state a run reaches, and the words statements use: a result
descriptor the block may produce (30_encoding.md R86), the canonical form of the buffers, and the ten
checks of `DECODE` as conditions on bytes (41_ipv4_parse.md, 42_udp_parse.md).
-/

namespace Sys2Proof.Machine

/-- A result descriptor the block may produce (R86, R201): a status of 0 to 9, bits 15:4 zero, no more
output than `cap`, and on an error every other field 0. -/
def legalRsp (cap : Nat) (r : Descriptor) : Prop :=
  (rspStatus r).toNat ≤ 9 ∧ rspZero r = 0#12 ∧ (rspOutLen r).toNat ≤ cap ∧
    (rspStatus r ≠ 0#4 → rspOutLen r = 0#16 ∧ rspSrcPort r = 0#16 ∧ rspCsum r = 0#16 ∧ rspSrcAddr r = 0#32)

/-- The invariant, for a bound `cap` on every `MAX_DGRAM` the host drives: both buffers are in canonical
form, `IBUF` inside its address space and `OBUF` inside the largest it has had, and every result that is
offered or was delivered is one the block may produce. With `cap` the one `MAX_DGRAM` of a run (R25) it is
the address space of R29; `OBUF` outlives a change of `MAX_DGRAM` between commands (R239). -/
structure BlockInv (cap : Nat) (s : State) : Prop where
  bound : s.capacity ≤ cap
  ibuf : Memory.wf ibufSize (some ibufUnlisted) s.ibuf = true
  obuf : Memory.wf cap none s.obuf = true
  offered : ∀ r, s.txn = some (.offered r) → legalRsp s.capacity r
  delivered : ∀ r, s.delivered = some r → legalRsp cap r

/-! ### The bytes of a datagram as numbers -/

/-- Byte `i` as a number; the statements use it only inside the sequence. -/
def num8 (B : Bytes) (i : Nat) : Nat := (B.getD i 0#8).toNat

/-- `be16(B, i) = B[i] * 256 + B[i+1]` (R12). -/
def num16 (B : Bytes) (i : Nat) : Nat := num8 B i * 256 + num8 B (i + 1)

/-- `be32(B, i)` (R12). -/
def num32 (B : Bytes) (i : Nat) : Nat :=
  num8 B i * 2 ^ 24 + num8 B (i + 1) * 2 ^ 16 + num8 B (i + 2) * 2 ^ 8 + num8 B (i + 3)

/-- `hlen = 4 * IHL` (R91). -/
def hlenOf (B : Bytes) : Nat := 4 * (num8 B 0 % 16)

/-- The stream of step 10 (R164): pseudo-header with the datagram's own addresses, UDP header with its
checksum field zeroed, payload. -/
def checkedStream (B : Bytes) : Bytes :=
  (B.drop 12).take 8 ++ [0#8, 17#8] ++ (B.drop (hlenOf B + 4)).take 2
    ++ (B.drop (hlenOf B)).take 6 ++ [0#8, 0#8] ++ B.drop (hlenOf B + 8)

/-- The condition of step `n` of `DECODE`, `n` from 1 to 10 (R141 to R146, R161 to R165). -/
def check (listenPort : Half) (B : Bytes) : Nat → Prop
  | 1 => 20 ≤ B.length
  | 2 => num8 B 0 / 16 = 4
  | 3 => hlenOf B ≤ B.length ∧ 20 ≤ hlenOf B
  | 4 => sum1c (B.take (hlenOf B)) = 0xFFFF
  | 5 => num16 B 2 = B.length
  | 6 => num8 B 9 = 17
  | 7 => hlenOf B + 8 ≤ B.length
  | 8 => num16 B (hlenOf B + 4) + hlenOf B = B.length
  | 9 => num16 B (hlenOf B + 2) = listenPort.toNat
  | 10 => num16 B (hlenOf B + 6) ≠ 0 →
      num16 B (hlenOf B + 6) = (udpStore (csum (checkedStream B))).toNat
  | _ => True

/-- Steps 1 to `n` all pass. -/
def passes (listenPort : Half) (B : Bytes) (n : Nat) : Prop :=
  ∀ k, 1 ≤ k → k ≤ n → check listenPort B k

/-- The error kind of each step (R201, R205). -/
def kindOfStep : Nat → ErrorKind
  | 1 => .tooShort
  | 2 => .badVersion
  | 3 => .badHeaderLength
  | 4 => .badIpChecksum
  | 5 => .lengthMismatch
  | 6 => .unsupportedProtocol
  | 7 => .tooShort
  | 8 => .lengthMismatch
  | 9 => .portMismatch
  | _ => .badUdpChecksum

/-- A byte sequence with bit `k` of byte `i` flipped (R151, R172). -/
def flipBit (B : Bytes) (i k : Nat) : Bytes := B.set i (B.getD i 0#8 ^^^ BitVec.twoPow 8 k)

/-- The high and the low byte of a number below 65536 (R12). -/
def twoBytes (v : Nat) : Bytes := [BitVec.ofNat 8 (v / 256), BitVec.ofNat 8 (v % 256)]

/-- The four bytes of a number below 2^32 (R12). -/
def fourBytes (v : Nat) : Bytes := twoBytes (v / 65536) ++ twoBytes (v % 65536)

end Sys2Proof.Machine
end

