-- ==== Sys2Proof/Certificates/Slice0/Obligations.lean ====
section
/-!
DEFINITION. The statements for the provers, from the numbered rules of spec/. Every one of them holds for
every configuration; none rests on a value the model chose, unless its docstring says so.
-/

open Sys2Proof Sys2Proof.Machine

/-! ### Encodings (30_encoding.md) -/

/-- Decoding an encoded well-formed command gives it back, whatever its operands (R80, R81, R82). -/
def Obligations.CommandDecodesBack : Prop :=
  ∀ i : Instr, i.wellFormed = true → decodeDescriptor (encodeDescriptor i) = .ok i

/-- A descriptor the decoder accepts is the encoding of what it reads, and that is well-formed: no bit of
it is dropped, and the packing is a bijection onto the non-reserved descriptors (R80, R81, decision D3). -/
def Obligations.DescriptorEncodesBack : Prop :=
  ∀ (d : Descriptor) (i : Instr), decodeDescriptor d = .ok i →
    i.wellFormed = true ∧ encodeDescriptor i = d

/-- The table of R81: a descriptor selects a command when `W0` under the mask is that command's match; the
upper 64 bits and `dst_addr_valid` take no part. -/
def Obligations.MaskSelectsTheCommand : Prop :=
  ∀ d : Descriptor,
    ((∃ c, decodeDescriptor d = .ok (.decode c)) ↔ word0 d &&& 0x0000FFF7#32 = 0x00000004#32) ∧
    ((∃ c, decodeDescriptor d = .ok (.encode c)) ↔ word0 d &&& 0x0000FFF7#32 = 0x00000005#32) ∧
    ((∃ c, decodeDescriptor d = .ok (.csum c)) ↔ word0 d &&& 0x0000FFF7#32 = 0x00000006#32)

/-- R85: a descriptor is reserved exactly when `op = 11`, or `raw = 0`, or `rsv` is not 0; a reserved one
is refused, and any other is one of the three commands. -/
def Obligations.ReservedDescriptorsAreRefused : Prop :=
  ∀ s : State, s.rst = false → s.txn = none → s.cmdValid = true →
    ((cmdOp s.cmd = 3#2 ∨ cmdRaw s.cmd = false ∨ cmdRsv s.cmd ≠ 0#12) →
      ∃ why, step s = .refused (.reservedDescriptor why)) ∧
    (¬ (cmdOp s.cmd = 3#2 ∨ cmdRaw s.cmd = false ∨ cmdRsv s.cmd ≠ 0#12) →
      ∃ i, decodeDescriptor s.cmd = .ok i)

/-- The columns "ignored" of R21 (and U13): an operand a command ignores has no effect on its outcome. -/
def Obligations.IgnoredOperandsHaveNoEffect : Prop :=
  ∀ (cfg : Config) (B : Bytes) (c c' : Operands), c.inLen = c'.inLen →
    (c.port = c'.port → decodeOutcome cfg c B = decodeOutcome cfg c' B) ∧
    csumOutcome cfg c B = csumOutcome cfg c' B ∧
    (c.port = c'.port → c.srcPort = c'.srcPort → c.dstAddrValid = c'.dstAddrValid →
      (c.dstAddrValid = true → c.dstAddr = c'.dstAddr) →
      encodeOutcome cfg c B = encodeOutcome cfg c' B)

/-- The worked descriptors of R87, read by the decoder and written by the encoder and the packing. -/
def Obligations.WorkedDescriptors : Prop :=
  decodeDescriptor (ofWords 0x00200004#32 0x00002328#32 0x00000000#32)
    = .ok (.decode ⟨false, 32, 9000#16, 0#16, 0#32⟩) ∧
  encodeDescriptor (.decode ⟨false, 32, 9000#16, 0#16, 0#32⟩)
    = ofWords 0x00200004#32 0x00002328#32 0x00000000#32 ∧
  decodeDescriptor (ofWords 0x0004000D#32 0x13882328#32 0x0A000001#32)
    = .ok (.encode ⟨true, 4, 9000#16, 5000#16, 0x0A000001#32⟩) ∧
  encodeDescriptor (.encode ⟨true, 4, 9000#16, 5000#16, 0x0A000001#32⟩)
    = ofWords 0x0004000D#32 0x13882328#32 0x0A000001#32 ∧
  (∀ w1 w2, ∃ c, decodeDescriptor (ofWords 0x00140006#32 w1 w2) = .ok (.csum c) ∧ c.inLen = 20) ∧
  (∀ payload : Bytes, payload.length = 4 →
    (Result.decoded payload 0x0A000001#32 5000#16).pack
      = ofWords 0x00040000#32 0x00001388#32 0x0A000001#32) ∧
  (∀ G : Bytes, G.length = 32 → (Result.encoded G).pack = ofWords 0x00200000#32 0#32 0#32) ∧
  (Result.err .badIpChecksum).pack = ofWords 0x00000004#32 0#32 0#32

/-- The fields of the result descriptor for each outcome (R86). -/
def Obligations.ResultDescriptorFields : Prop :=
  ∀ r : Result, (∀ bytes, r.output = some bytes → bytes.length ≤ 65535) →
    rspZero r.pack = 0#12 ∧ (rspStatus r.pack).toNat ≤ 9 ∧
    (rspOutLen r.pack).toNat = (r.output.map List.length).getD 0 ∧
    match r with
    | .decoded _ a p => rspStatus r.pack = 0#4 ∧ rspSrcPort r.pack = p ∧ rspCsum r.pack = 0#16 ∧
        rspSrcAddr r.pack = a
    | .encoded _ => rspStatus r.pack = 0#4 ∧ rspSrcPort r.pack = 0#16 ∧ rspCsum r.pack = 0#16 ∧
        rspSrcAddr r.pack = 0#32
    | .summed c => rspStatus r.pack = 0#4 ∧ rspSrcPort r.pack = 0#16 ∧ rspCsum r.pack = c ∧
        rspSrcAddr r.pack = 0#32
    | .err k => rspStatus r.pack = k.code ∧ rspSrcPort r.pack = 0#16 ∧ rspCsum r.pack = 0#16 ∧
        rspSrcAddr r.pack = 0#32

/-- The status codes of R201 and the classes of R200. -/
def Obligations.StatusCodesAndClasses : Prop :=
  [ErrorKind.tooShort, .badVersion, .badHeaderLength, .badIpChecksum, .lengthMismatch,
    .unsupportedProtocol, .portMismatch, .badUdpChecksum, .payloadTooLarge].map
      (fun k => (k.code.toNat, k.errorClass))
    = [(1, .structural), (2, .policy), (3, .structural), (4, .integrity), (5, .structural),
       (6, .policy), (7, .policy), (8, .integrity), (9, .capacity)]

/-! ### The checksum generator (40_checksum.md) -/

/-- R121: the words of a byte sequence pair bytes high then low, an odd last byte being the high half of
the last word. -/
def Obligations.WordsPairBytesHighThenLow : Prop :=
  ∀ X : Bytes,
    (words X).length = (X.length + 1) / 2 ∧
    (∀ k, 2 * k + 1 < X.length →
      ((words X).map BitVec.toNat)[k]? = some (num8 X (2 * k) * 256 + num8 X (2 * k + 1))) ∧
    (X.length % 2 = 1 →
      ((words X).map BitVec.toNat)[X.length / 2]? = some (num8 X (X.length - 1) * 256))

/-- R122: `Fold` obeys its recursion, whose argument strictly falls; its result is a 16-bit value; and it
has the closed form of the rule. -/
def Obligations.FoldRecursionAndClosedForm : Prop :=
  ∀ t : Nat,
    fold t = (if t ≤ 0xFFFF then t else fold (t % 65536 + t / 65536)) ∧
    (0xFFFF < t → t % 65536 + t / 65536 < t) ∧
    fold t ≤ 0xFFFF ∧
    (t = 0 → fold t = 0) ∧
    (0 < t → fold t = (t - 1) % 65535 + 1)

/-- R123: the folded sum of the words; folding after every addition, or within a sum, or once at the end
gives the same. -/
def Obligations.FoldingScheduleDoesNotMatter : Prop :=
  (∀ X : Bytes, sum1c X = fold ((words X).map BitVec.toNat).sum) ∧
  sum1c [] = 0 ∧
  (∀ a b : Nat, fold (a + b) = fold (fold a + fold b)) ∧
  (∀ X : Bytes, (words X).foldl (fun acc w => fold (acc + w.toNat)) 0 = sum1c X)

/-- R124: the generated checksum is `0xFFFF - Sum1c(X)`, the bitwise complement of the folded sum. -/
def Obligations.ChecksumComplementsTheSum : Prop :=
  ∀ X : Bytes, sum1c X ≤ 0xFFFF ∧ (csum X).toNat = 0xFFFF - sum1c X ∧
    csum X = ~~~ (BitVec.ofNat 16 (sum1c X))

/-- R126: verification asks the folded sum before the complement for `0xFFFF`, which is a generated
checksum of 0. -/
def Obligations.VerifyIsAllOnesBeforeComplement : Prop :=
  ∀ X : Bytes, (verify X = true ↔ sum1c X = 0xFFFF) ∧ (verify X = true ↔ csum X = 0x0000#16)

/-- R128: which sums are 0 and which checksums are all ones or zero; the stream of a pseudo-header and a
header with a non-zero first byte never sum to 0. -/
def Obligations.ZeroAndAllOnesSums : Prop :=
  (∀ X : Bytes, sum1c X = 0 ↔ ∀ b ∈ X, b = 0#8) ∧
  (∀ X : Bytes, csum X = 0xFFFF#16 ↔ ∀ b ∈ X, b = 0#8) ∧
  (∀ X : Bytes, csum X = 0x0000#16 ↔
    (¬ ∀ b ∈ X, b = 0#8) ∧ ((words X).map BitVec.toNat).sum % 65535 = 0) ∧
  (∀ (src dst : Addr) (n : Half) (Y : Bytes), csum (pseudo src dst n ++ Y) ≠ 0xFFFF#16) ∧
  (∀ (b : Byte) (Y : Bytes), b ≠ 0#8 → csum (b :: Y) ≠ 0xFFFF#16)

/-- R129: a checksum generated over a zeroed field at an even offset verifies once it stands in that field,
in its UDP form too; and exactly these values verify. -/
def Obligations.GenerateThenVerify : Prop :=
  ∀ A Z : Bytes, A.length % 2 = 0 →
    let X0 := A ++ [0#8, 0#8] ++ Z
    let X := fun c : Half => A ++ enc16 c ++ Z
    verify (X (csum X0)) = true ∧
    verify (X (udpStore (csum X0))) = true ∧
    (0 < sum1c X0 → sum1c X0 < 0xFFFF →
      ∀ c, verify (X c) = true ↔ c = BitVec.ofNat 16 (0xFFFF - sum1c X0)) ∧
    (sum1c X0 = 0xFFFF → ∀ c, verify (X c) = true ↔ c = 0x0000#16 ∨ c = 0xFFFF#16) ∧
    (sum1c X0 = 0 → ∀ c, verify (X c) = true ↔ c = 0xFFFF#16)

/-- R131: a stream may be summed in parts at an even offset; at an odd one that fails. -/
def Obligations.SumSplitsAtEvenOffsets : Prop :=
  (∀ X Y : Bytes, X.length % 2 = 0 → sum1c (X ++ Y) = fold (sum1c X + sum1c Y)) ∧
  (∃ X Y : Bytes, X.length % 2 = 1 ∧ sum1c (X ++ Y) ≠ fold (sum1c X + sum1c Y)) ∧
  (∀ (src dst : Addr) (n : Half) (U Y : Bytes), U.length = 8 →
    sum1c (pseudo src dst n ++ U ++ Y) = fold (sum1c (pseudo src dst n) + sum1c U + sum1c Y))

/-- R132: for a non-zero field the two spellings of the UDP check agree. -/
def Obligations.UdpCheckSpellingsAgree : Prop :=
  ∀ (src dst : Addr) (n sport dport len f : Half) (D : Bytes), f ≠ 0x0000#16 →
    let ports := enc16 sport ++ enc16 dport ++ enc16 len
    (f = udpStore (csum (pseudo src dst n ++ (ports ++ [0#8, 0#8]) ++ D)) ↔
      verify (pseudo src dst n ++ (ports ++ enc16 f) ++ D) = true)

/-! ### CSUM (40_checksum.md R130) -/

/-- `CSUM` under the host's duty always ends `OK`: its result is the complement of the folded sum, each
byte of an even offset weighing 256, and `OBUF` is not written. -/
def Obligations.CsumCompletes : Prop :=
  ∀ (c : Operands) (s : State), c.inLen ≤ s.cfg.maxDgram.toNat →
    let B := s.input c.inLen
    exec (.csum c) s = .next (s.offer (packResult 0#4 0#16 0#16
      (BitVec.ofNat 16 (0xFFFF -
        fold ((List.range c.inLen).map (fun i => num8 B i * (if i % 2 = 0 then 256 else 1))).sum))
      0#32))

/-- The corner cases of R130. -/
def Obligations.CsumCornerCases : Prop :=
  csum [] = 0xFFFF#16 ∧
  (∀ n, csum (List.replicate n 0#8) = 0xFFFF#16) ∧
  csum [0xFF#8, 0xFF#8] = 0x0000#16 ∧
  (∀ b : Byte, (csum [b]).toNat = 0xFFFF - 256 * b.toNat) ∧
  (∀ A Z : Bytes, A.length % 2 = 0 →
    csum (A ++ enc16 (csum (A ++ [0#8, 0#8] ++ Z)) ++ Z) = 0x0000#16)

/-! ### DECODE (41_ipv4_parse.md, 42_udp_parse.md, 60_exceptions.md) -/

/-- R205: the first of the ten checks that fails decides the error, and the command ends there. -/
def Obligations.DecodeFirstFailingStepDecides : Prop :=
  ∀ (c : Operands) (s : State) (n : Nat), c.inLen ≤ s.cfg.maxDgram.toNat → 1 ≤ n → n ≤ 10 →
    passes c.port (s.input c.inLen) (n - 1) → ¬ check c.port (s.input c.inLen) n →
    exec (.decode c) s = .next (s.raiseError (kindOfStep n))

/-- R160, R168: when all ten checks pass, `DECODE` delivers the payload, the source address and the source
port. -/
def Obligations.DecodeDeliversThePayload : Prop :=
  ∀ (c : Operands) (s : State), c.inLen ≤ s.cfg.maxDgram.toNat →
    passes c.port (s.input c.inLen) 10 →
    let B := s.input c.inLen
    exec (.decode c) s = .next ((s.putObuf (B.drop (hlenOf B + 8))).offer
      (packResult 0#4 (BitVec.ofNat 16 (c.inLen - hlenOf B - 8))
        (BitVec.ofNat 16 (num16 B (hlenOf B))) 0#16 (BitVec.ofNat 32 (num32 B 12))))

/-- R202: the exact cause of each error kind, over the outcome of the commands. -/
def Obligations.ErrorKindCauses : Prop :=
  ∀ (port : Half) (B : Bytes) (cfg : Config) (c : Operands) (P : Bytes),
    (runDecode port B = .err .tooShort ↔
      B.length < 20 ∨ (passes port B 6 ∧ ¬ check port B 7)) ∧
    (runDecode port B = .err .badVersion ↔ passes port B 1 ∧ ¬ check port B 2) ∧
    (runDecode port B = .err .badHeaderLength ↔ passes port B 2 ∧ ¬ check port B 3) ∧
    (runDecode port B = .err .badIpChecksum ↔ passes port B 3 ∧ ¬ check port B 4) ∧
    (runDecode port B = .err .lengthMismatch ↔
      (passes port B 4 ∧ ¬ check port B 5) ∨ (passes port B 7 ∧ ¬ check port B 8)) ∧
    (runDecode port B = .err .unsupportedProtocol ↔ passes port B 5 ∧ ¬ check port B 6) ∧
    (runDecode port B = .err .portMismatch ↔ passes port B 8 ∧ ¬ check port B 9) ∧
    (runDecode port B = .err .badUdpChecksum ↔ passes port B 9 ∧ ¬ check port B 10) ∧
    (runDecode port B ≠ .err .payloadTooLarge) ∧
    (∀ k, runEncode cfg c P = .err k ↔
      k = .payloadTooLarge ∧ cfg.maxDgram.toNat < 28 + P.length) ∧
    (∀ k, runCsum B ≠ .err k)

/-- R165: with a zero checksum field the datagram decodes whatever its payload is. -/
def Obligations.ZeroUdpChecksumIsAccepted : Prop :=
  ∀ (port : Half) (B payload : Bytes), passes port B 9 → num16 B (hlenOf B + 6) = 0 →
    hlenOf B + 8 + payload.length = B.length →
    runDecode port (B.take (hlenOf B + 8) ++ payload)
      = .decoded payload (BitVec.ofNat 32 (num32 B 12)) (BitVec.ofNat 16 (num16 B (hlenOf B)))

/-- R93, R150: the type of service, identification, flags, fragment offset, time to live and option bytes
change nothing as long as the header checksum verifies. -/
def Obligations.UnexaminedHeaderBytesDoNotMatter : Prop :=
  ∀ (port : Half) (B B' : Bytes), B.length = B'.length →
    check port B 4 → check port B' 4 →
    (∀ i, ¬ (i = 1 ∨ (4 ≤ i ∧ i ≤ 8) ∨ i = 10 ∨ i = 11 ∨ (20 ≤ i ∧ i < hlenOf B)) → num8 B i = num8 B' i) →
    runDecode port B = runDecode port B'

/-- R151: one flipped bit of the IPv4 header of a datagram that decoded. Byte 0's low nibble has no
guaranteed outcome beyond (b)'s first half. -/
def Obligations.IpHeaderBitFlips : Prop :=
  ∀ (port : Half) (B p : Bytes) (a : Addr) (q : Half) (i k : Nat),
    runDecode port B = .decoded p a q → i < hlenOf B → k < 8 →
    (i = 0 → 4 ≤ k → runDecode port (flipBit B i k) = .err .badVersion) ∧
    (i = 0 → k < 4 → (hlenOf (flipBit B i k) < 20 ∨ B.length < hlenOf (flipBit B i k)) →
      runDecode port (flipBit B i k) = .err .badHeaderLength) ∧
    (1 ≤ i → runDecode port (flipBit B i k) = .err .badIpChecksum)

/-- R151 (b), vector V-SENS-3: a datagram that decodes, and still decodes, to another payload and source
port, with bit 1 of byte 0 flipped. -/
def Obligations.HeaderLengthFlipCanDecode : Prop :=
  ∃ (B p p' : Bytes) (a : Addr) (q q' : Half),
    runDecode 9000#16 B = .decoded p a q ∧ runDecode 9000#16 (flipBit B 0 1) = .decoded p' a q' ∧
    p ≠ p' ∧ q ≠ q'

/-- R172: one flipped bit of the UDP header or payload of a datagram that decoded. -/
def Obligations.UdpBitFlips : Prop :=
  ∀ (port : Half) (B p : Bytes) (a : Addr) (q : Half) (i k : Nat),
    runDecode port B = .decoded p a q → hlenOf B ≤ i → i < B.length → k < 8 →
    let h := hlenOf B
    let f := num16 B (h + 6)
    (i < h + 2 → f ≠ 0 → runDecode port (flipBit B i k) = .err .badUdpChecksum) ∧
    (i < h + 2 → f = 0 → ∃ q', q' ≠ q ∧ runDecode port (flipBit B i k) = .decoded p a q') ∧
    (h + 2 ≤ i → i < h + 4 → runDecode port (flipBit B i k) = .err .portMismatch) ∧
    (h + 4 ≤ i → i < h + 6 → runDecode port (flipBit B i k) = .err .lengthMismatch) ∧
    (h + 8 ≤ i → f ≠ 0 → runDecode port (flipBit B i k) = .err .badUdpChecksum) ∧
    (h + 8 ≤ i → f = 0 → ∃ p', p' ≠ p ∧ runDecode port (flipBit B i k) = .decoded p' a q)

/-- R168: the output of a successful `DECODE` is at least 28 bytes shorter than its input. -/
def Obligations.DecodeOutputBound : Prop :=
  ∀ (port : Half) (B p : Bytes) (a : Addr) (q : Half),
    runDecode port B = .decoded p a q → p.length + 28 ≤ B.length

/-! ### ENCODE (43_encode.md) -/

/-- R180, R183, R184, R185, R187, R188, R189: a payload that fits is encapsulated, byte for byte. -/
def Obligations.EncodeBuildsTheDatagram : Prop :=
  ∀ (c : Operands) (s : State), 28 + c.inLen ≤ s.cfg.maxDgram.toNat →
    let P := s.input c.inLen
    let n := c.inLen
    let src := fourBytes s.cfg.srcAddr.toNat
    let dst := fourBytes (if c.dstAddrValid = true then c.dstAddr else s.cfg.defaultDstAddr).toNat
    let U := twoBytes c.srcPort.toNat ++ twoBytes c.port.toNat ++ twoBytes (8 + n)
    let uc := csum (src ++ dst ++ [0#8, 17#8] ++ twoBytes (8 + n) ++ U ++ [0#8, 0#8] ++ P)
    let H := [0x45#8, s.cfg.tos] ++ twoBytes (28 + n) ++ twoBytes s.cfg.ident.toNat
      ++ twoBytes s.cfg.flagsFrag.toNat ++ [s.cfg.ttl, 17#8]
    let hc := csum (H ++ [0#8, 0#8] ++ src ++ dst)
    exec (.encode c) s = .next ((s.putObuf
      (H ++ twoBytes hc.toNat ++ src ++ dst ++ U
        ++ twoBytes (if uc = 0x0000#16 then 0xFFFF else uc.toNat) ++ P)).offer
      (packResult 0#4 (BitVec.ofNat 16 (28 + n)) 0#16 0#16 0#32))

/-- R182: a payload that does not fit is `PayloadTooLarge`, the sum not wrapping at 16 bits, and nothing is
written. -/
def Obligations.EncodeRejectsOversizePayload : Prop :=
  ∀ (c : Operands) (s : State), s.cfg.maxDgram.toNat < 28 + c.inLen →
    exec (.encode c) s = .next (s.raiseError .payloadTooLarge) ∧
    (s.raiseError .payloadTooLarge).obuf = s.obuf ∧
    (s.raiseError .payloadTooLarge).obufEpoch = s.obufEpoch

/-- R190: whether `ENCODE` fails depends on the size of the payload alone. -/
def Obligations.EncodeFailsOnSizeAlone : Prop :=
  ∀ (cfg : Config) (c : Operands) (P : Bytes),
    (28 + P.length ≤ cfg.maxDgram.toNat → ∃ G, runEncode cfg c P = .encoded G ∧ G.length = 28 + P.length) ∧
    (¬ 28 + P.length ≤ cfg.maxDgram.toNat → runEncode cfg c P = .err .payloadTooLarge)

/-- R185, R188, R191, R97: what the encoder's two checksum fields satisfy: the header verifies, the UDP
stream verifies, the UDP field is never 0, the header field never all ones. -/
def Obligations.EmittedChecksumsVerify : Prop :=
  ∀ (cfg : Config) (c : Operands) (P G : Bytes), runEncode cfg c P = .encoded G →
    verify (G.take 20) = true ∧
    num16 G 10 ≠ 0xFFFF ∧
    num16 G 26 ≠ 0 ∧
    verify ((G.drop 12).take 8 ++ [0#8, 17#8] ++ (G.drop 24).take 2 ++ G.drop 20) = true

/-- R192, the round trip, on the descriptors of the two commands and the function `Exec` of R39. -/
def Obligations.EncodeThenDecodeRoundTrip : Prop :=
  ∀ (cfg : Config) (c : Operands) (P G : Bytes), c.inLen = P.length → P.length ≤ 65535 →
    transact cfg (encodeDescriptor (.encode c)) P = .ok (.encoded G) →
    transact cfg (encodeDescriptor (.decode
      { dstAddrValid := false, inLen := G.length, port := c.port, srcPort := 0#16, dstAddr := 0#32 })) G
      = .ok (.decoded P cfg.srcAddr c.srcPort)

/-- The round trip on the machine (R192, R71): the host issues `ENCODE`, copies the output to `IBUF` and
issues `DECODE`; the payload is back in `OBUF`, and the result names the configured sender. -/
def Obligations.RoundTripOnTheMachine : Prop :=
  ∀ (cap : Nat) (s : State) (c : Operands), BlockInv cap s → s.rst = false → s.txn = none → s.rspReady = true →
    28 + c.inLen ≤ s.cfg.maxDgram.toNat →
    ∃ s1 s2 s3,
      issue (encodeDescriptor (.encode c)) s = .next s1 ∧
      hostAct .feedBack s1 = .next s2 ∧
      issue (encodeDescriptor (.decode
        { dstAddrValid := false, inLen := 28 + c.inLen, port := c.port, srcPort := 0#16, dstAddr := 0#32 }))
        s2 = .next s3 ∧
      s3.output c.inLen = s.input c.inLen ∧
      s3.delivered = some (packResult 0#4 (BitVec.ofNat 16 c.inLen) c.srcPort 0#16 s.cfg.srcAddr)

/-! ### The machine (10_state.md, 20_memory.md, 60_exceptions.md, 70_reset_and_hazards.md) -/

/-- A step runs the decoded command: the one in flight, or the one presented to an idle block, which is
accepted first (R34, R38, R66). That the accepted descriptor leaves the port is the model's choice (log
entry 7). -/
def Obligations.StepRunsTheDecodedCommand : Prop :=
  ∀ (s : State) (d : Descriptor) (i : Instr), s.rst = false → decodeDescriptor d = .ok i →
    (s.txn = some (.running d) → step s = exec i s) ∧
    (s.txn = none → s.cmdValid = true → s.cmd = d →
      step s = exec i { s with cmdValid := false, txn := some (.running d) })

/-- A step on a presented command does what `Exec` of R39 says of the configuration, the descriptor and the
bytes `IBUF[0 : in_len]`, packed as R86 says: refused, or a result delivered (offered, where the host is
not ready) and exactly its output in `OBUF`. -/
def Obligations.StepRefinesExec : Prop :=
  ∀ s : State, s.rst = false → s.txn = none → s.cmdValid = true →
    match transact s.cfg s.cmd (s.input (operandsOf s.cmd).inLen) with
    | .error why => step s = .refused why
    | .ok r => ∃ t, step s = .next t ∧
        (s.rspReady = true → t.txn = none ∧ t.delivered = some r.pack) ∧
        (s.rspReady = false → t.txn = some (.offered r.pack) ∧ t.delivered = s.delivered) ∧
        (∀ bytes, r.output = some bytes → t.output bytes.length = bytes) ∧
        (r.output = none → t.obuf = s.obuf ∧ t.obufEpoch = s.obufEpoch)

/-- Every step keeps the invariant: buffers in canonical form inside their address spaces (R28, R29, R64),
every result one the block may produce (R86, R201). It holds for every bound `cap`, so for `MAX_DGRAM`
itself in a run that keeps it constant. -/
def Obligations.StepKeepsTheInvariant : Prop :=
  ∀ (cap : Nat) (s t : State), BlockInv cap s → step s = .next t → BlockInv cap t

/-- The invariant holds after reset, whatever the configuration inputs are. -/
def Obligations.ResetMeetsTheInvariant : Prop :=
  ∀ cfg : Config, BlockInv cfg.maxDgram.toNat (State.resetWith cfg)

/-- Every action of the host keeps the invariant too, as long as no `MAX_DGRAM` it drives is above the
bound; every other action keeps it whatever the bound is. -/
def Obligations.HostActionsKeepTheInvariant : Prop :=
  ∀ (cap : Nat) (a : HostAction) (s t : State), BlockInv cap s → hostAct a s = .next t →
    (∀ cfg, a = .configure cfg → cfg.maxDgram.toNat ≤ cap) → BlockInv cap t

/-- R64, R194: no command reaches an address outside its buffers, in any state. -/
def Obligations.CommandsNeverFault : Prop :=
  ∀ (i : Instr) (s : State) (why : Fault), exec i s ≠ .fault why

/-- R37, R39, U4: a command is refused exactly where `DECODE` or `CSUM` breaks the duty on `in_len`. -/
def Obligations.RefusedExactlyOnBrokenDuty : Prop :=
  ∀ (c : Operands) (s : State) (why : Refusal),
    (exec (.decode c) s = .refused why ↔ why = .inLenAboveMaxDgram ∧ s.cfg.maxDgram.toNat < c.inLen) ∧
    (exec (.csum c) s = .refused why ↔ why = .inLenAboveMaxDgram ∧ s.cfg.maxDgram.toNat < c.inLen) ∧
    (exec (.encode c) s ≠ .refused why)

/-- The frame of the three commands (R20, R21, R25, R28): configuration, the other inputs and `IBUF` are
as before; `CSUM` leaves `OBUF` as it is (R130); `DECODE` and `ENCODE` write `OBUF[0 : out_len]` and nothing
else is said of `OBUF` after them (R29). -/
def Obligations.CommandFrame : Prop :=
  ∀ (i : Instr) (s t : State), exec i s = .next t →
    t.cfg = s.cfg ∧ t.rst = s.rst ∧ t.cmdValid = s.cmdValid ∧ t.cmd = s.cmd ∧
    t.rspReady = s.rspReady ∧ t.ibuf = s.ibuf ∧ (∀ a, t.ibufByte a = s.ibufByte a) ∧
    (∀ c, i = .csum c → t.obuf = s.obuf ∧ ∀ a, t.obufByte a = s.obufByte a) ∧
    (s.rspReady = true → t.txn = none) ∧ (s.rspReady = false → t.delivered = s.delivered)

/-- R59, R212: a command that ends in an error ends with that error's code and every other result field
0, and changes nothing else: no byte of `OBUF`, no other state. -/
def Obligations.ErrorsLeaveNoTrace : Prop :=
  ∀ (i : Instr) (s t : State) (r : Descriptor), exec i s = .next t →
    (s.rspReady = true → t.delivered = some r) → (s.rspReady = false → t.txn = some (.offered r)) →
    rspStatus r ≠ 0#4 →
    (∃ kind : ErrorKind, r = packResult kind.code 0#16 0#16 0#16 0#32) ∧
    t = (if s.rspReady = true then { s with txn := none, delivered := some r }
      else { s with txn := some (.offered r) }) ∧
    ∀ a, t.obufByte a = s.obufByte a

/-- R42, R232: the outcome of a command depends on the configuration, the command and `IBUF[0 : in_len]`
only: not on `OBUF`, earlier results or a reset before it, nor on bytes of `IBUF` beyond. -/
def Obligations.OutcomeIsIndependentOfHistory : Prop :=
  ∀ (i : Instr) (s s' : State), s.cfg = s'.cfg → s.rspReady = s'.rspReady →
    Memory.wf ibufSize (some ibufUnlisted) s.ibuf = true →
    Memory.wf ibufSize (some ibufUnlisted) s'.ibuf = true →
    (∀ a, a < i.operands.inLen → s.ibufByte a = s'.ibufByte a) →
    (∀ why, exec i s = .refused why ↔ exec i s' = .refused why) ∧
    (∀ t, exec i s = .next t → ∃ t', exec i s' = .next t' ∧
      (s.rspReady = true → t'.delivered = t.delivered) ∧
      (s.rspReady = false → t'.txn = t.txn) ∧
      (∀ r, (s.rspReady = true → t.delivered = some r) → (s.rspReady = false → t.txn = some (.offered r)) →
        ∀ a, a < (rspOutLen r).toNat → t'.obufByte a = t.obufByte a))

/-- R66: `cmd` is sampled at acceptance; a change of the port afterwards has no effect on the command in
flight. R69 and R234 (5) read such a change as a broken duty: that R66 is followed is the MODEL'S CHOICE
(log entry 24). -/
def Obligations.AcceptedCommandIsLatched : Prop :=
  ∀ (s t : State) (d d' : Descriptor) (valid : Bool), s.txn = some (.running d) → step s = .next t →
    step { s with cmd := d', cmdValid := valid } = .next { t with cmd := d', cmdValid := valid }

/-- R230, R231, R41: `rst` on an idle block changes nothing; on a command in flight it abandons it without
a result and leaves every byte of `OBUF` unspecified; while it is asserted no command is accepted and no
result delivered. -/
def Obligations.ResetAbandonsTheCommandInFlight : Prop :=
  ∀ s : State, s.rst = true →
    s.cmdReady = false ∧ s.rspValid = false ∧
    (s.txn = none → step s = .next s) ∧
    (s.txn ≠ none → ∃ t, step s = .next t ∧ t.txn = none ∧ t.delivered = s.delivered ∧ t.cfg = s.cfg ∧
      t.ibuf = s.ibuf ∧ ∀ a, t.obufByte a = Config.obufFree t.obufEpoch a)

/-- R34: the handshakes. A busy block is not ready for a command; an offered result is on `rsp` and delivered
when the host is ready; until then it stays offered, and an idle block with no command presented waits,
`rsp` being unspecified in both cases (R239, U10, R41): any value, in the form of log entry 10. -/
def Obligations.TransactionHandshake : Prop :=
  ∀ s : State, s.rst = false →
    (s.cmdReady = true ↔ s.txn = none) ∧
    (∀ r, s.txn = some (.offered r) →
      s.rspValid = true ∧
      (s.rspReady = true → (∀ any, s.rspPort any = r) ∧
        step s = .next { s with txn := none, delivered := some r }) ∧
      (s.rspReady = false → (∀ any, s.rspPort any = any) ∧ step s = .next s)) ∧
    (s.txn = none → s.cmdValid = false → s.rspValid = false ∧ (∀ any, s.rspPort any = any) ∧
      step s = .next s)

/-- R35, R34: every accepted command that `Exec` gives a meaning completes, here in one step of a block
whose host takes results, with exactly one result. -/
def Obligations.AcceptedCommandsComplete : Prop :=
  ∀ (s : State) (d : Descriptor), s.rst = false → s.rspReady = true → s.txn = some (.running d) →
    (∀ why, transact s.cfg d (s.input (operandsOf d).inLen) ≠ .error why) →
    ∃ t r, step s = .next t ∧ t.txn = none ∧ t.delivered = some r.pack ∧
      transact s.cfg d (s.input (operandsOf d).inLen) = .ok r

/-- R40, R214: the same command issued again gives the same result. -/
def Obligations.RepeatedCommandRepeatsItsResult : Prop :=
  ∀ (s t : State) (d : Descriptor), s.rst = false → s.txn = none → s.rspReady = true →
    issue d s = .next t →
    ∃ u, issue d t = .next u ∧ u.delivered = t.delivered ∧ u.txn = none ∧
      ∀ r, t.delivered = some r → u.output (rspOutLen r).toNat = t.output (rspOutLen r).toNat

/-- R37, R237, R240 (U5, U6): while a command is in flight the host may change neither the configuration
nor a buffer. -/
def Obligations.HostDutiesInFlight : Prop :=
  ∀ (s : State) (x : Txn), s.txn = some x →
    (∀ cfg, hostAct (.configure cfg) s = .refused .configChangedInFlight) ∧
    (∀ bytes, hostAct (.fill bytes) s = .refused .ibufWrittenInFlight) ∧
    hostAct .feedBack s = .refused .ibufWrittenInFlight ∧
    (∀ bytes, hostAct (.writeObuf bytes) s = .refused .obufWrittenInFlight)

/-- R28: a command's input is the bytes of `IBUF` at 0 to `in_len - 1`. -/
def Obligations.InputIsTheStartOfIbuf : Prop :=
  ∀ (s : State) (n : Nat), Memory.wf ibufSize (some ibufUnlisted) s.ibuf = true →
    s.input n = (List.range n).map s.ibufByte

/-- R28, R234: what the host fills is what a command reads, and the rest of `IBUF` is as before. -/
def Obligations.FilledBytesAreTheInput : Prop :=
  ∀ (s : State) (bytes : Bytes), Memory.wf ibufSize (some ibufUnlisted) s.ibuf = true → s.txn = none →
    bytes.length ≤ 65535 →
    ∃ t, hostAct (.fill bytes) s = .next t ∧ t.input bytes.length = bytes ∧
      ∀ a, bytes.length ≤ a → t.ibufByte a = s.ibufByte a

/-- What the host sees of `OBUF`. Where `OBUF` has no byte the access is a fault: that is the MODEL'S CHOICE
(log entry 19), R29 gives the addresses and no fault. While a command is in flight a byte is unspecified
(R239, U10): any value, the argument being the model's form of it (log entry 10). Otherwise it is the byte
`OBUF` holds, below `MAX_DGRAM` and in `OBUF[0 : out_len]` of the last result (R239). -/
def Obligations.HostViewOfObuf : Prop :=
  ∀ (s : State) (a : Nat) (any : Byte),
    (s.txn ≠ none → s.cfg.maxDgram.toNat ≤ a → s.hostObuf a any = .error .obufAddress) ∧
    (s.txn ≠ none → a < s.cfg.maxDgram.toNat → s.hostObuf a any = .ok any) ∧
    (s.txn = none → s.cfg.maxDgram.toNat ≤ a → s.lastOutLen ≤ a → s.hostObuf a any = .error .obufAddress) ∧
    (s.txn = none → (a < s.cfg.maxDgram.toNat ∨ a < s.lastOutLen) → s.hostObuf a any = .ok (s.obufByte a))

/-- What was delivered stays valid until the next command: R239 says so of `OBUF[0 : out_len]`. On an idle
block no action of the host but a write of `OBUF` itself, and no step before a command is accepted, changes
a byte of `OBUF` or the last result, and the host still sees `OBUF[0 : out_len]`. That driving other
configuration inputs leaves EVERY byte of `OBUF` and the last result is the MODEL'S CHOICE (log entry 18,
DEDUCED, unsafe): R239 speaks of `OBUF[0 : out_len]` only, and R240 says nothing of `OBUF`. The field that
holds the last result is the model's own (log entry 8). -/
def Obligations.OutputStaysUntilTheNextCommand : Prop :=
  ∀ s t : State, s.txn = none → t.txn = none →
    ((∃ a, hostAct a s = .next t ∧ ∀ bytes, a ≠ .writeObuf bytes) ∨
      ((s.cmdValid = false ∨ s.rst = true) ∧ step s = .next t)) →
    t.delivered = s.delivered ∧ (∀ a, t.obufByte a = s.obufByte a) ∧
    ∀ a any, a < s.lastOutLen → t.hostObuf a any = .ok (s.obufByte a)

/-- R104: a command line assembles to a descriptor with `raw = 1`, `rsv = 0` and its `len` in `in_len`, and
running the line is issuing that descriptor. That a command line whose `len` is above 65535 is refused is
the MODEL'S CHOICE (log entry 21): the spec gives it no assembly. -/
def Obligations.CommandLinesIssueTheirDescriptor : Prop :=
  ∀ (l : Line) (i : Instr) (s : State), l.command = some i →
    (i.operands.inLen ≤ 65535 → l.run s = issue (encodeDescriptor i) s ∧
      cmdRaw (encodeDescriptor i) = true ∧ cmdRsv (encodeDescriptor i) = 0#12 ∧
      (operandsOf (encodeDescriptor i)).inLen = i.operands.inLen) ∧
    (65535 < i.operands.inLen → l.run s = .refused .lineNotEncodable)

/-- R41: after reset the block is idle and ready for a command, with no result offered. -/
def Obligations.ResetStateIsIdle : Prop :=
  ∀ cfg : Config, (State.resetWith cfg).txn = none ∧ (State.resetWith cfg).cmdReady = true ∧
    (State.resetWith cfg).rspValid = false ∧ (State.resetWith cfg).cfg = cfg
end

