-- ==== Sys2Proof/Laws/Checksum.lean ====
section
/-!
SUPPORT. The small lemmas of the checksum functions, of the field encodings and of the layouts.
-/

namespace Sys2Proof.Machine

@[simp] theorem words_nil : words [] = [] := rfl
@[simp] theorem words_singleton (b : Byte) : words [b] = [b ++ 0#8] := rfl
@[simp] theorem words_cons_cons (a b : Byte) (X : Bytes) : words (a :: b :: X) = (a ++ b) :: words X := rfl

/-- The value of a word: its first byte is the high one. -/
theorem toNat_append_byte (a b : Byte) : (a ++ b).toNat = a.toNat * 256 + b.toNat := by
  rw [BitVec.toNat_append, Nat.shiftLeft_eq, Nat.mul_comm, ← Nat.two_pow_add_eq_or_of_lt b.isLt]

@[simp] theorem wordSum_nil : wordSum [] = 0 := rfl
@[simp] theorem wordSum_singleton (b : Byte) : wordSum [b] = b.toNat * 256 := by
  have h := toNat_append_byte b 0#8
  simpa [wordSum] using h
theorem wordSum_cons_cons (a b : Byte) (X : Bytes) :
    wordSum (a :: b :: X) = a.toNat * 256 + b.toNat + wordSum X := by
  simp only [wordSum, words_cons_cons, List.map_cons, List.sum_cons, toNat_append_byte]

/-- A value of 16 bits folds to itself. -/
theorem fold_of_le {t : Nat} (h : t ≤ 0xFFFF) : fold t = t := by
  cases t <;> simp [fold, foldRounds, h]

theorem udpStore_ne_zero (c : Half) : udpStore c ≠ 0x0000#16 := by
  unfold udpStore
  split
  · decide
  · assumption

@[simp] theorem enc16_length (v : Half) : (enc16 v).length = 2 := rfl
@[simp] theorem enc32_length (v : Addr) : (enc32 v).length = 4 := rfl
@[simp] theorem pseudo_length (src dst : Addr) (n : Half) : (pseudo src dst n).length = 12 := rfl
@[simp] theorem udpHeader_length (c : Operands) (n : Nat) (k : Half) : (udpHeader c n k).length = 8 := rfl
@[simp] theorem ipHeader_length (cfg : Config) (c : Operands) (n : Nat) (k : Half) :
    (ipHeader cfg c n k).length = 20 := rfl
@[simp] theorem datagram_length (cfg : Config) (c : Operands) (P : Bytes) :
    (datagram cfg c P).length = 28 + P.length := by
  simp [datagram]; omega

end Sys2Proof.Machine
end

