-- ==== Sys2Proof/Laws/Encoding.lean ====
section
/-!
SUPPORT. Where each bit of an encoded descriptor comes from (30_encoding.md R80, R86).
-/

namespace Sys2Proof

/-- Each bit of a command descriptor comes from one field (R80). -/
theorem getLsbD_packOperands (op : BitVec 2) (c : Operands) (i : Nat) :
    (packOperands op c).getLsbD i =
      if i < 2 then op.getLsbD i
      else if i < 3 then (1#1).getLsbD (i - 2)
      else if i < 4 then (BitVec.ofBool c.dstAddrValid).getLsbD (i - 3)
      else if i < 16 then (0#12).getLsbD (i - 4)
      else if i < 32 then (BitVec.ofNat 16 c.inLen).getLsbD (i - 16)
      else if i < 48 then c.port.getLsbD (i - 32)
      else if i < 64 then c.srcPort.getLsbD (i - 48)
      else c.dstAddr.getLsbD (i - 64) := by
  unfold packOperands
  repeat rw [BitVec.getLsbD_append]
  simp only [Nat.sub_sub]
  grind

/-- Each bit of a result descriptor comes from one field (R86). -/
theorem getLsbD_packResult (status : BitVec 4) (outLen srcPort csum : Half) (srcAddr : Addr) (i : Nat) :
    (Machine.packResult status outLen srcPort csum srcAddr).getLsbD i =
      if i < 4 then status.getLsbD i
      else if i < 16 then (0#12).getLsbD (i - 4)
      else if i < 32 then outLen.getLsbD (i - 16)
      else if i < 48 then srcPort.getLsbD (i - 32)
      else if i < 64 then csum.getLsbD (i - 48)
      else srcAddr.getLsbD (i - 64) := by
  unfold Machine.packResult
  repeat rw [BitVec.getLsbD_append]
  simp only [Nat.sub_sub]
  grind

/-- Each bit of a descriptor made of three words. -/
theorem getLsbD_ofWords (w0 w1 w2 : Addr) (i : Nat) :
    (ofWords w0 w1 w2).getLsbD i =
      if i < 32 then w0.getLsbD i else if i < 64 then w1.getLsbD (i - 32) else w2.getLsbD (i - 64) := by
  unfold ofWords
  repeat rw [BitVec.getLsbD_append]
  simp only [Nat.sub_sub]
  grind

end Sys2Proof
end

