-- ==== Sys2Proof/Laws/State.lean ====
section
/-!
SUPPORT. What each named update of the state does to each field, one lemma a field, so that no proof
unfolds an update.
-/

namespace Sys2Proof.Machine

@[simp] theorem State.putObuf_cfg (s : State) (b : Bytes) : (s.putObuf b).cfg = s.cfg := rfl
@[simp] theorem State.putObuf_rst (s : State) (b : Bytes) : (s.putObuf b).rst = s.rst := rfl
@[simp] theorem State.putObuf_cmdValid (s : State) (b : Bytes) : (s.putObuf b).cmdValid = s.cmdValid := rfl
@[simp] theorem State.putObuf_cmd (s : State) (b : Bytes) : (s.putObuf b).cmd = s.cmd := rfl
@[simp] theorem State.putObuf_rspReady (s : State) (b : Bytes) : (s.putObuf b).rspReady = s.rspReady := rfl
@[simp] theorem State.putObuf_ibuf (s : State) (b : Bytes) : (s.putObuf b).ibuf = s.ibuf := rfl
@[simp] theorem State.putObuf_obuf (s : State) (b : Bytes) :
    (s.putObuf b).obuf = Memory.cellsFrom none 0 b := rfl
@[simp] theorem State.putObuf_obufEpoch (s : State) (b : Bytes) :
    (s.putObuf b).obufEpoch = s.obufEpoch + 1 := rfl
@[simp] theorem State.putObuf_txn (s : State) (b : Bytes) : (s.putObuf b).txn = s.txn := rfl
@[simp] theorem State.putObuf_delivered (s : State) (b : Bytes) : (s.putObuf b).delivered = s.delivered := rfl

@[simp] theorem State.loseObuf_cfg (s : State) : s.loseObuf.cfg = s.cfg := rfl
@[simp] theorem State.loseObuf_rst (s : State) : s.loseObuf.rst = s.rst := rfl
@[simp] theorem State.loseObuf_cmdValid (s : State) : s.loseObuf.cmdValid = s.cmdValid := rfl
@[simp] theorem State.loseObuf_cmd (s : State) : s.loseObuf.cmd = s.cmd := rfl
@[simp] theorem State.loseObuf_rspReady (s : State) : s.loseObuf.rspReady = s.rspReady := rfl
@[simp] theorem State.loseObuf_ibuf (s : State) : s.loseObuf.ibuf = s.ibuf := rfl
@[simp] theorem State.loseObuf_obuf (s : State) : s.loseObuf.obuf = [] := rfl
@[simp] theorem State.loseObuf_obufEpoch (s : State) : s.loseObuf.obufEpoch = s.obufEpoch + 1 := rfl
@[simp] theorem State.loseObuf_txn (s : State) : s.loseObuf.txn = s.txn := rfl
@[simp] theorem State.loseObuf_delivered (s : State) : s.loseObuf.delivered = s.delivered := rfl

@[simp] theorem State.accept_cfg (s : State) : s.accept.cfg = s.cfg := rfl
@[simp] theorem State.accept_rst (s : State) : s.accept.rst = s.rst := rfl
@[simp] theorem State.accept_cmdValid (s : State) : s.accept.cmdValid = false := rfl
@[simp] theorem State.accept_cmd (s : State) : s.accept.cmd = s.cmd := rfl
@[simp] theorem State.accept_rspReady (s : State) : s.accept.rspReady = s.rspReady := rfl
@[simp] theorem State.accept_ibuf (s : State) : s.accept.ibuf = s.ibuf := rfl
@[simp] theorem State.accept_obuf (s : State) : s.accept.obuf = s.obuf := rfl
@[simp] theorem State.accept_obufEpoch (s : State) : s.accept.obufEpoch = s.obufEpoch := rfl
@[simp] theorem State.accept_txn (s : State) : s.accept.txn = some (.running s.cmd) := rfl
@[simp] theorem State.accept_delivered (s : State) : s.accept.delivered = s.delivered := rfl

@[simp] theorem State.offer_cfg (s : State) (r : Descriptor) : (s.offer r).cfg = s.cfg := by
  unfold State.offer; split <;> rfl
@[simp] theorem State.offer_rst (s : State) (r : Descriptor) : (s.offer r).rst = s.rst := by
  unfold State.offer; split <;> rfl
@[simp] theorem State.offer_cmdValid (s : State) (r : Descriptor) : (s.offer r).cmdValid = s.cmdValid := by
  unfold State.offer; split <;> rfl
@[simp] theorem State.offer_cmd (s : State) (r : Descriptor) : (s.offer r).cmd = s.cmd := by
  unfold State.offer; split <;> rfl
@[simp] theorem State.offer_rspReady (s : State) (r : Descriptor) : (s.offer r).rspReady = s.rspReady := by
  unfold State.offer; split <;> rfl
@[simp] theorem State.offer_ibuf (s : State) (r : Descriptor) : (s.offer r).ibuf = s.ibuf := by
  unfold State.offer; split <;> rfl
@[simp] theorem State.offer_obuf (s : State) (r : Descriptor) : (s.offer r).obuf = s.obuf := by
  unfold State.offer; split <;> rfl
@[simp] theorem State.offer_obufEpoch (s : State) (r : Descriptor) : (s.offer r).obufEpoch = s.obufEpoch := by
  unfold State.offer; split <;> rfl
@[simp] theorem State.offer_capacity (s : State) (r : Descriptor) : (s.offer r).capacity = s.capacity := by
  simp [State.capacity]
@[simp] theorem State.putObuf_capacity (s : State) (b : Bytes) : (s.putObuf b).capacity = s.capacity := rfl
@[simp] theorem State.offer_obufByte (s : State) (r : Descriptor) (a : Nat) :
    (s.offer r).obufByte a = s.obufByte a := by simp [State.obufByte]
@[simp] theorem State.offer_ibufByte (s : State) (r : Descriptor) (a : Nat) :
    (s.offer r).ibufByte a = s.ibufByte a := by simp [State.ibufByte]
/-- The two ways a result leaves the block (R34). -/
theorem State.offer_eq (s : State) (r : Descriptor) :
    s.offer r = if s.rspReady = true then { s with txn := none, delivered := some r }
      else { s with txn := some (.offered r) } := rfl
/-- `MAX_DGRAM` is a 16-bit input (R8). -/
theorem State.capacity_le (s : State) : s.capacity ≤ 65535 :=
  Nat.le_of_lt_succ s.cfg.maxDgram.isLt
theorem State.offer_of_ready {s : State} (h : s.rspReady = true) (r : Descriptor) :
    s.offer r = { s with txn := none, delivered := some r } := by simp [State.offer, h]
theorem State.offer_of_not_ready {s : State} (h : s.rspReady = false) (r : Descriptor) :
    s.offer r = { s with txn := some (.offered r) } := by simp [State.offer, h]

@[simp] theorem State.resetBlock_cfg (s : State) : s.resetBlock.cfg = s.cfg := by
  unfold State.resetBlock; split <;> rfl
@[simp] theorem State.resetBlock_rst (s : State) : s.resetBlock.rst = s.rst := by
  unfold State.resetBlock; split <;> rfl
@[simp] theorem State.resetBlock_rspReady (s : State) : s.resetBlock.rspReady = s.rspReady := by
  unfold State.resetBlock; split <;> rfl
@[simp] theorem State.resetBlock_ibuf (s : State) : s.resetBlock.ibuf = s.ibuf := by
  unfold State.resetBlock; split <;> rfl
@[simp] theorem State.resetBlock_delivered (s : State) : s.resetBlock.delivered = s.delivered := by
  unfold State.resetBlock; split <;> rfl
@[simp] theorem State.resetBlock_txn (s : State) : s.resetBlock.txn = none := by
  unfold State.resetBlock; split <;> simp_all

@[simp] theorem State.withFetchWord_rst (s : State) (k w : Nat) : (s.withFetchWord k w).rst = false := rfl
@[simp] theorem State.withFetchWord_txn (s : State) (k w : Nat) : (s.withFetchWord k w).txn = none := rfl
@[simp] theorem State.withFetchWord_cmdValid (s : State) (k w : Nat) :
    (s.withFetchWord k w).cmdValid = true := rfl
@[simp] theorem State.withFetchWord_cmd (s : State) (k w : Nat) :
    (s.withFetchWord k w).cmd = BitVec.ofNat 96 (w % 2 ^ k) := rfl
@[simp] theorem State.withFetchWord_cfg (s : State) (k w : Nat) : (s.withFetchWord k w).cfg = s.cfg := rfl
@[simp] theorem State.withFetchWord_ibuf (s : State) (k w : Nat) : (s.withFetchWord k w).ibuf = s.ibuf := rfl
@[simp] theorem State.withFetchWord_obuf (s : State) (k w : Nat) : (s.withFetchWord k w).obuf = s.obuf := rfl

@[simp] theorem State.resetWith_cfg (c : Config) : (State.resetWith c).cfg = c := rfl
@[simp] theorem State.resetWith_txn (c : Config) : (State.resetWith c).txn = none := rfl
@[simp] theorem State.resetWith_ibuf (c : Config) : (State.resetWith c).ibuf = [] := rfl
@[simp] theorem State.resetWith_obuf (c : Config) : (State.resetWith c).obuf = [] := rfl
@[simp] theorem State.resetWith_delivered (c : Config) : (State.resetWith c).delivered = none := rfl

end Sys2Proof.Machine
end

