-- ==== Sys2Proof/Laws/Memory.lean ====
section
/-!
SUPPORT. The buffers: every operation keeps the canonical form, and what a byte reads after a write.
-/

namespace Sys2Proof.Machine

/-- The canonical form as propositions. -/
theorem Memory.wf_iff (size : Nat) (u : Option Byte) (m : Memory) :
    Memory.wf size u m = true ↔
      m.Pairwise (fun c c' => c.1 < c'.1) ∧ ∀ c ∈ m, c.1 < size ∧ some c.2 ≠ u := by
  simp [Memory.wf]

theorem Memory.wf_nil (size : Nat) (u : Option Byte) : Memory.wf size u [] = true := by
  simp [Memory.wf_iff]

/-- Where the entries of a written sequence lie. -/
theorem Memory.mem_cellsFrom {u : Option Byte} {c : Host.Cell} :
    ∀ {bs : Bytes} {a : Nat}, c ∈ Memory.cellsFrom u a bs →
      a ≤ c.1 ∧ c.1 < a + bs.length ∧ some c.2 ≠ u
  | [], _, h => by simp [Memory.cellsFrom] at h
  | b :: bs, a, h => by
    unfold Memory.cellsFrom at h
    split at h
    · obtain ⟨h1, h2, h3⟩ := Memory.mem_cellsFrom h
      exact ⟨by omega, by simp only [List.length_cons]; omega, h3⟩
    · rename_i hb
      rcases List.mem_cons.1 h with rfl | h
      · simp [hb]
      · obtain ⟨h1, h2, h3⟩ := Memory.mem_cellsFrom h
        exact ⟨by omega, by simp only [List.length_cons]; omega, h3⟩

theorem Memory.cellsFrom_rising (u : Option Byte) :
    ∀ (bs : Bytes) (a : Nat), (Memory.cellsFrom u a bs).Pairwise (fun c c' => c.1 < c'.1)
  | [], _ => List.Pairwise.nil
  | b :: bs, a => by
    unfold Memory.cellsFrom
    split
    · exact Memory.cellsFrom_rising u bs (a + 1)
    · refine List.Pairwise.cons (fun c hc => ?_) (Memory.cellsFrom_rising u bs (a + 1))
      have := Memory.mem_cellsFrom hc
      simp only; omega

/-- A written sequence is canonical where it fits. -/
theorem Memory.cellsFrom_wf {u : Option Byte} {bs : Bytes} {size : Nat} (h : bs.length ≤ size) :
    Memory.wf size u (Memory.cellsFrom u 0 bs) = true := by
  refine (Memory.wf_iff ..).2 ⟨Memory.cellsFrom_rising u bs 0, fun c hc => ?_⟩
  have := Memory.mem_cellsFrom hc
  exact ⟨by omega, this.2.2⟩

/-- A write at the start of a canonical buffer keeps it canonical. -/
theorem Memory.overlay_wf {u : Option Byte} {bs : Bytes} {size : Nat} {m : Memory}
    (hm : Memory.wf size u m = true) (h : bs.length ≤ size) :
    Memory.wf size u (Memory.overlay u bs m) = true := by
  rw [Memory.wf_iff] at hm ⊢
  refine ⟨List.pairwise_append.2 ⟨Memory.cellsFrom_rising u bs 0, hm.1.filter _, ?_⟩, ?_⟩
  · intro c hc c' hc'
    have h1 := Memory.mem_cellsFrom hc
    have h2 := (List.mem_filter.1 hc').2
    simp only [decide_eq_true_eq] at h2
    omega
  · intro c hc
    rcases List.mem_append.1 hc with hc | hc
    · have := Memory.mem_cellsFrom hc
      exact ⟨by omega, this.2.2⟩
    · exact hm.2 c (List.mem_filter.1 hc).1

/-- Reading a written sequence; `none` where the byte is the one an unlisted address reads as, or outside. -/
theorem Memory.at?_cellsFrom (u : Option Byte) :
    ∀ (bs : Bytes) (a x : Nat),
      Memory.at? (Memory.cellsFrom u a bs) x
        = if a ≤ x then (bs[x - a]?).filter (fun b => decide (some b ≠ u)) else none
  | [], a, x => by simp [Memory.cellsFrom, Memory.at?]
  | b :: bs, a, x => by
    unfold Memory.cellsFrom
    have ih := Memory.at?_cellsFrom u bs (a + 1) x
    rcases Nat.lt_trichotomy x a with hx | rfl | hx
    · have h2 : ¬ a + 1 ≤ x := by omega
      have h3 : a ≠ x := by omega
      split <;> simp [Memory.at?, ih, h2, h3] <;> omega
    · have h2 : ¬ x + 1 ≤ x := by omega
      split
      · rename_i hb
        subst hb
        simp [ih, Option.filter]
      · rename_i hb
        simp [Memory.at?, Option.filter, hb]
    · have h1 : a ≤ x := by omega
      have h2 : a + 1 ≤ x := by omega
      have h3 : a ≠ x := by omega
      have h4 : x - a = (x - (a + 1)) + 1 := by omega
      split <;>
        simp [Memory.at?, ih, h2, h3, h4]

theorem Memory.at?_append (x : Nat) :
    ∀ m m' : Memory, Memory.at? (m ++ m') x = (Memory.at? m x).or (Memory.at? m' x)
  | [], m' => by simp [Memory.at?]
  | c :: m, m' => by
    obtain ⟨k, b⟩ := c
    by_cases h : k = x <;> simp [Memory.at?, h, Memory.at?_append x m m']

theorem Memory.at?_filter_ge (n x : Nat) :
    ∀ m : Memory, Memory.at? (m.filter (fun c => decide (n ≤ c.1))) x
      = if n ≤ x then Memory.at? m x else none
  | [] => by simp [Memory.at?]
  | c :: m => by
    obtain ⟨k, b⟩ := c
    have ih := Memory.at?_filter_ge n x m
    by_cases hk : n ≤ k <;> by_cases hx : n ≤ x <;> by_cases h : k = x <;>
      simp_all [Memory.at?]

@[simp] theorem Memory.slice_length (u : Byte) :
    ∀ (m : Memory) (a n : Nat), (Memory.slice u m a n).length = n
  | _, _, 0 => by simp [Memory.slice]
  | [], a, n + 1 => by simp [Memory.slice, Memory.slice_length u [] (a + 1) n]
  | (k, b) :: m, a, n + 1 => by
    unfold Memory.slice
    split
    · simp [Memory.slice_length u m (a + 1) n]
    · simp [Memory.slice_length u ((k, b) :: m) (a + 1) n]

/-- A command's input has the length its descriptor gives. -/
@[simp] theorem State.input_length (s : State) (n : Nat) : (s.input n).length = n := by
  simp [State.input]

/-- A byte of `OBUF` below `out_len` after a successful command. -/
theorem State.putObuf_obufByte (s : State) (bytes : Bytes) (a : Nat) (h : a < bytes.length) :
    (s.putObuf bytes).obufByte a = bytes[a] := by
  simp [State.obufByte, Memory.at?_cellsFrom, h, Option.filter]

end Sys2Proof.Machine
end

