-- ==== Sys2Proof/Laws/PerInstr.lean ====
section
/-!
SUPPORT. Statements about every command as a term, one lemma per constructor. Selection: the encoder's word
`W0` is selected by its own row of the opcode table and by no other (30_encoding.md R81).
-/

namespace Sys2Proof

/-- The match of a command's row in spec/opcode_table.json. -/
def Laws.Selection.rowMatch : Instr → Addr
  | .decode _ => 0x00000004#32
  | .encode _ => 0x00000005#32
  | .csum _ => 0x00000006#32

/-- The encoded command's `W0` under the mask is its row's match. -/
def Laws.Selection.Statement (i : Instr) : Prop :=
  word0 (encodeDescriptor i) &&& 0x0000FFF7#32 = Laws.Selection.rowMatch i

/-- Any operands leave the selecting bits as the operation sets them. -/
theorem word0_packOperands_select (op : BitVec 2) (c : Operands) :
    word0 (packOperands op c) &&& 0x0000FFF7#32 = BitVec.setWidth 32 op ||| 0x00000004#32 := by
  apply BitVec.eq_of_getLsbD_eq
  intro i hi
  rw [BitVec.getLsbD_and, word0, BitVec.getLsbD_extractLsb', Nat.zero_add, getLsbD_packOperands]
  interval_cases i <;> simp

theorem Laws.Selection.decode (c : Operands) : Laws.Selection.Statement (.decode c) :=
  word0_packOperands_select 0b00#2 c

theorem Laws.Selection.encode (c : Operands) : Laws.Selection.Statement (.encode c) :=
  word0_packOperands_select 0b01#2 c

theorem Laws.Selection.csum (c : Operands) : Laws.Selection.Statement (.csum c) :=
  word0_packOperands_select 0b10#2 c

end Sys2Proof
end

