-- ==== Sys2Proof/Laws/Step.lean ====
section
/-!
SUPPORT. What each shared operation, each command and a step can answer, said once.
-/

namespace Sys2Proof.Machine

/-- `emit` answers a next state exactly where the output fits. -/
theorem State.emit_next_iff (s t : State) (bytes : Bytes) (r : Descriptor) :
    s.emit bytes r = .next t ↔ bytes.length ≤ s.capacity ∧ t = (s.putObuf bytes).offer r := by
  unfold State.emit
  split <;> simp_all [eq_comm]

theorem State.emit_not_refused (s : State) (bytes : Bytes) (r : Descriptor) (why : Refusal) :
    s.emit bytes r ≠ .refused why := by
  unfold State.emit
  split <;> simp

/-- A command ends by writing its output, or by leaving `OBUF` as it is, and by its result. -/
theorem State.settle_next {s t : State} {r : Result} (h : s.settle r = .next t) :
    (∃ bytes, r.output = some bytes ∧ bytes.length ≤ s.capacity ∧ t = (s.putObuf bytes).offer r.pack) ∨
      (r.output = none ∧ t = s.offer r.pack) := by
  cases r with
  | decoded p a q => exact .inl ⟨p, rfl, (State.emit_next_iff ..).1 h⟩
  | encoded g => exact .inl ⟨g, rfl, (State.emit_next_iff ..).1 h⟩
  | summed c => exact .inr ⟨rfl, by simpa [State.settle, eq_comm] using h⟩
  | err k => exact .inr ⟨rfl, by simpa [State.settle, State.raiseError, eq_comm] using h⟩

theorem State.settle_not_refused (s : State) (r : Result) (why : Refusal) : s.settle r ≠ .refused why := by
  cases r <;> simp [State.settle, State.emit_not_refused]

/-- The outcome of a command over the input it reads: `exec` in terms of R39. -/
def outcomeOf (cfg : Config) (i : Instr) (B : Bytes) : Except Refusal Result :=
  match i with
  | .decode c => decodeOutcome cfg c B
  | .encode c => encodeOutcome cfg c B
  | .csum c => csumOutcome cfg c B

theorem exec_eq_conclude (i : Instr) (s : State) :
    exec i s = s.conclude (outcomeOf s.cfg i (s.input i.operands.inLen)) := by
  cases i <;> rfl

/-- Every next state of a command comes from an outcome, in one of the two ways a command ends. -/
theorem exec_next {i : Instr} {s t : State} (h : exec i s = .next t) :
    ∃ r, outcomeOf s.cfg i (s.input i.operands.inLen) = .ok r ∧
      ((∃ bytes, r.output = some bytes ∧ bytes.length ≤ s.capacity ∧ t = (s.putObuf bytes).offer r.pack) ∨
        (r.output = none ∧ t = s.offer r.pack)) := by
  rw [exec_eq_conclude] at h
  cases ho : outcomeOf s.cfg i (s.input i.operands.inLen) with
  | error why => simp [ho, State.conclude] at h
  | ok r => exact ⟨r, rfl, State.settle_next (by simpa [ho, State.conclude] using h)⟩

/-- Where a command to run comes from. -/
theorem State.fetch_some {s s' : State} {d : Descriptor} (h : s.fetch = some (d, s')) :
    (s.txn = some (.running d) ∧ s' = s) ∨
      (s.txn = none ∧ s.cmdValid = true ∧ d = s.cmd ∧ s' = s.accept) := by
  unfold State.fetch at h
  split at h
  · rename_i d' hd
    simp only [Option.some.injEq, Prod.mk.injEq] at h
    obtain ⟨rfl, rfl⟩ := h
    exact .inl ⟨hd, rfl⟩
  · cases h
  · rename_i hn
    split at h
    · rename_i hv
      simp only [Option.some.injEq, Prod.mk.injEq] at h
      exact .inr ⟨hn, hv, h.1.symm, h.2.symm⟩
    · cases h

/-- Everything a step that answers a next state can do. -/
theorem step_next {s t : State} (h : step s = .next t) :
    (s.rst = true ∧ t = s.resetBlock) ∨
    (s.rst = false ∧ s.fetch = none ∧ t = s.deliver) ∨
    (s.rst = false ∧ ∃ d s' i, s.fetch = some (d, s') ∧ decodeDescriptor d = .ok i ∧ exec i s' = .next t) := by
  unfold step at h
  split at h
  · rename_i hr
    exact .inl ⟨hr, by simpa [eq_comm] using h⟩
  · rename_i hr
    have hr : s.rst = false := by simpa using hr
    split at h
    · rename_i hf
      exact .inr (.inl ⟨hr, hf, by simpa [eq_comm] using h⟩)
    · rename_i d s' hf
      split at h
      · rename_i i hd
        exact .inr (.inr ⟨hr, d, s', i, hf, hd, h⟩)
      · cases h

/-! ### The host -/

/-- A fill answers a next state exactly where its bytes fit in `IBUF`, and changes `IBUF` only. -/
theorem State.fill_next_iff (s t : State) (bytes : Bytes) :
    s.fill bytes = .next t ↔ bytes.length ≤ ibufSize ∧
      t = { s with ibuf := Memory.overlay (some ibufUnlisted) bytes s.ibuf } := by
  unfold State.fill
  split <;> simp_all [eq_comm]

/-- A command line runs as the descriptor it assembles to, and is refused where it has none. -/
theorem Line.run_command {l : Line} {i : Instr} (h : l.command = some i) (s : State) :
    l.run s = if i.wellFormed = true then issue (encodeDescriptor i) s else .refused .lineNotEncodable := by
  have ha : l.assemble = if i.wellFormed = true then some i else none := by
    simp [Line.assemble, h, Option.filter]
  have hr : l.run s = match l.assemble with
      | none => .refused .lineNotEncodable
      | some i => issue (encodeDescriptor i) s := by
    cases l <;> first | rfl | cases h
  rw [hr, ha]
  by_cases hw : i.wellFormed = true <;> simp [hw]

/-- The three states of the result port: unspecified unless a result is offered and the host ready. -/
theorem State.rspPort_cases (s : State) (any : Descriptor) :
    (∃ r, s.txn = some (.offered r) ∧ s.rst = false ∧ s.rspReady = true ∧ s.rspPort any = r) ∨
      (s.delivering = false ∧ s.rspPort any = any) := by
  unfold State.rspPort State.delivering State.rspValid
  split
  · rename_i r hr
    cases hs : s.rst <;> cases hy : s.rspReady <;> simp_all
  · exact .inr ⟨rfl, rfl⟩

theorem State.hasObuf_iff (s : State) (a : Nat) :
    s.hasObuf a = true ↔ a < s.capacity ∨ (s.txn = none ∧ a < s.lastOutLen) := by
  simp [State.hasObuf, State.busy]

theorem legalRsp_mono {cap cap' : Nat} {r : Descriptor} (h : legalRsp cap r) (hc : cap ≤ cap') :
    legalRsp cap' r :=
  ⟨h.1, h.2.1, Nat.le_trans h.2.2.1 hc, h.2.2.2⟩

end Sys2Proof.Machine
end

