-- ==== Sys2Proof/Tests/Slice0.lean ====
section
/-!
SUPPORT. Small tests: ill-formed terms, words written out from the encodings, vectors of 95_test_vectors.md,
and for every statement with hypotheses a concrete witness that meets them.
-/

namespace Sys2Proof.Tests

open Sys2Proof Sys2Proof.Machine

/-! ### Helpers -/

/-- The next state of an outcome, where there is one. -/
def next? : Host.Outcome State Fault Refusal → Option State
  | .next s => some s
  | _ => none

theorem exists_next {o : Host.Outcome State Fault Refusal} (h : (next? o).isSome = true) : ∃ t, o = .next t := by
  cases o with
  | next t => exact ⟨t, rfl⟩
  | fault _ => cases h
  | refused _ => cases h

/-- A block after reset, `bytes` in `IBUF`, a descriptor presented. -/
def hosted (cfg : Config) (bytes : Bytes) (d : Descriptor) : State :=
  { State.resetWith cfg with
    ibuf := Memory.overlay (some ibufUnlisted) bytes [], cmdValid := true, cmd := d }

/-- What the host gets back from one step: the three words of the result, and `OBUF[0 : out_len]`. -/
def response (o : Host.Outcome State Fault Refusal) : Option (Addr × Addr × Addr × Bytes) :=
  match next? o with
  | none => none
  | some t =>
    match t.delivered with
    | none => none
    | some r => some (word0 r, word1 r, word2 r, t.output (rspOutLen r).toNat)

/-- The UDP header and payload of V-SRC-1. -/
def gUdp : Bytes := [0x13, 0x88, 0x23, 0x28, 0x00, 0x0C, 0xD6, 0x53, 0x70, 0x69, 0x6E, 0x67]

/-- The reference datagram `G` of V-SRC-1. -/
def gBytes : Bytes :=
  [0x45, 0x00, 0x00, 0x20, 0x00, 0x00, 0x00, 0x00, 0x40, 0x11, 0x66, 0xCC,
   0x0A, 0x00, 0x00, 0x01, 0x0A, 0x00, 0x00, 0x01] ++ gUdp

/-- V-U-10: `G` with a zero UDP checksum. -/
def gZero : Bytes := gBytes.take 26 ++ [0x00, 0x00] ++ gBytes.drop 28

/-- The descriptor of `DECODE listen=9000 len=32` (R87). -/
def gDecode : Descriptor := ofWords 0x00200004#32 0x00002328#32 0x00000000#32

/-- Its operands. -/
def gOps : Operands := ⟨false, 32, 9000#16, 0#16, 0#32⟩

/-- `ENCODE dst=10.0.0.1 dport=9000 sport=5000 len=4` (R87). -/
def eOps : Operands := ⟨true, 4, 9000#16, 5000#16, 0x0A000001#32⟩

/-- `G` in `IBUF`, its `DECODE` presented. -/
def gState : State := hosted Config.vectorDefaults gBytes gDecode

/-- "ping" in `IBUF`, its `ENCODE` presented. -/
def eState : State :=
  hosted Config.vectorDefaults [0x70, 0x69, 0x6E, 0x67] (ofWords 0x0004000D#32 0x13882328#32 0x0A000001#32)

/-- `CSUM len=20` over the header of `G`. -/
def cState : State := hosted Config.vectorDefaults gBytes (ofWords 0x00140006#32 0#32 0#32)

/-- `gState` with the command accepted and in flight. -/
def gRunning : State := gState.accept

/-- `gState` with a result offered to a host that is not ready. -/
def gOffered : State := { gState with rspReady := false, txn := some (.offered (Result.err .badVersion).pack) }

/-- The datagram's `DECODE` over and its result taken; the payload stands in `OBUF`. -/
def gDone : State :=
  (next? (step gState)).getD gState

/-- `MAX_DGRAM` driven to 3 afterwards, below `out_len` (4). -/
def gShrunk : State := { gDone with cfg := { Config.vectorDefaults with maxDgram := 3#16 } }

/-! ### Well-formedness and decoding -/

/-- The one check of WellFormed: `in_len` above 65535 cannot be spelled (R80). -/
theorem test_ill_formed_in_len :
    Instr.wellFormed (.csum ⟨false, 65536, 0#16, 0#16, 0#32⟩) = false ∧
    Instr.wellFormed (.csum ⟨false, 65535, 0#16, 0#16, 0#32⟩) = true := by decide

/-- R80, bit by bit: dst_addr, src_port, port, in_len, rsv, dst_addr_valid, raw, op. -/
theorem test_decode_word_DECODE :
    decodeDescriptor
      (0b11000000000000000000001000000111#32 ++ 0b0000010011010010#16 ++ 0b0000000000110101#16
        ++ 0b0000000000100011#16 ++ 0b000000000000#12 ++ 0b1#1 ++ 0b1#1 ++ 0b00#2)
    = .ok (.decode ⟨true, 35, 53#16, 1234#16, dotted 192 0 2 7⟩) := by decide

theorem test_decode_word_ENCODE :
    decodeDescriptor
      (0b00001010000000000000000000000001#32 ++ 0b0001001110001000#16 ++ 0b0010001100101000#16
        ++ 0b0000000000000100#16 ++ 0b000000000000#12 ++ 0b1#1 ++ 0b1#1 ++ 0b01#2)
    = .ok (.encode ⟨true, 4, 9000#16, 5000#16, dotted 10 0 0 1⟩) := by decide

theorem test_decode_word_CSUM :
    decodeDescriptor
      (0b00000000000000000000000000000000#32 ++ 0b0000000000000000#16 ++ 0b0000000000000000#16
        ++ 0b0000000000010100#16 ++ 0b000000000000#12 ++ 0b0#1 ++ 0b1#1 ++ 0b10#2)
    = .ok (.csum ⟨false, 20, 0#16, 0#16, 0#32⟩) := by decide

/-- R85: the three ways a descriptor is reserved. -/
theorem test_decode_reserved :
    decodeDescriptor (ofWords 0x00000007#32 0#32 0#32) = .error .opcode ∧
    decodeDescriptor (ofWords 0x00000000#32 0#32 0#32) = .error .rawClear ∧
    decodeDescriptor (ofWords 0x00008004#32 0#32 0#32) = .error .rsvSet := by decide

/-- The table's own words, bits above 16 zero. -/
theorem test_decode_table_words :
    decodeTableWord 96 0x4 = some (.decode ⟨false, 0, 0#16, 0#16, 0#32⟩) ∧
    decodeTableWord 96 0x5 = some (.encode ⟨false, 0, 0#16, 0#16, 0#32⟩) ∧
    decodeTableWord 16 0x6 = some (.csum ⟨false, 0, 0#16, 0#16, 0#32⟩) := by decide

/-- The very next step runs a placed word: `CSUM` of nothing is 0xFFFF (V-C-1). -/
theorem test_fetch_word :
    response (step (State.reset.withFetchWord 96 0x6)) = some (0#32, 0xFFFF0000#32, 0#32, []) := by decide +kernel

/-! ### Vectors, at most two per command -/

/-- V-SRC-1, the decode half. -/
theorem test_DECODE_V_SRC_1 :
    response (step gState)
      = some (0x00040000#32, 0x00001388#32, 0x0A000001#32, [0x70, 0x69, 0x6E, 0x67]) := by decide +kernel

/-- V-I-21: options, MF set, TTL 1, an odd payload, a verified UDP checksum. -/
theorem test_DECODE_V_I_21 :
    response (step (hosted Config.vectorDefaults
      [0x46, 0x00, 0x00, 0x23, 0xBE, 0xEF, 0x20, 0x00, 0x01, 0x11, 0xEB, 0x95, 0xC0, 0x00, 0x02, 0x07,
       0xC6, 0x33, 0x64, 0x09, 0x01, 0x01, 0x01, 0x00, 0x04, 0xD2, 0x00, 0x35, 0x00, 0x0B, 0x85, 0x23,
       0x68, 0x69, 0x21] (ofWords 0x00230004#32 0x00000035#32 0#32)))
      = some (0x00030000#32, 0x000004D2#32, 0xC0000207#32, [0x68, 0x69, 0x21]) := by decide +kernel

/-- V-E-3: exactly fills, every configured byte differs from the default. -/
theorem test_ENCODE_V_E_3 :
    response (step (hosted ⟨32#16, 0xC0000201#32, 0x7F000001#32, 0x10#8, 0x1234#16, 0x4000#16, 128#8⟩
      [0, 0, 0, 0, 0] (ofWords 0x0004000D#32 0xFFFFFFFF#32 0xFFFFFFFF#32)))
      = some (0x00200000#32, 0#32, 0#32,
        [0x45, 0x10, 0x00, 0x20, 0x12, 0x34, 0x40, 0x00, 0x80, 0x11, 0x26, 0x88, 0xC0, 0x00, 0x02, 0x01,
         0xFF, 0xFF, 0xFF, 0xFF, 0xFF, 0xFF, 0xFF, 0xFF, 0x00, 0x0C, 0x3D, 0xD5, 0, 0, 0, 0]) := by
  decide +kernel

/-- V-U-15: the computed UDP checksum is 0 and is stored as 0xFFFF. -/
theorem test_ENCODE_V_U_15 :
    response (step (hosted Config.vectorDefaults [0xB5, 0x28]
      (ofWords 0x0002000D#32 0x13882328#32 0x0A000001#32)))
      = some (0x001E0000#32, 0#32, 0#32,
        [0x45, 0x00, 0x00, 0x1E, 0x00, 0x00, 0x00, 0x00, 0x40, 0x11, 0x66, 0xCE, 0x0A, 0x00, 0x00, 0x01,
         0x0A, 0x00, 0x00, 0x01, 0x13, 0x88, 0x23, 0x28, 0x00, 0x0A, 0xFF, 0xFF, 0xB5, 0x28]) := by
  decide +kernel

/-- V-C-10: two carries. -/
theorem test_CSUM_V_C_10 :
    response (step (hosted Config.vectorDefaults [0x00, 0x01, 0xF2, 0x03, 0xF4, 0xF5, 0xF6, 0xF7]
      (ofWords 0x00080006#32 0#32 0#32))) = some (0#32, 0x220D0000#32, 0#32, []) := by decide +kernel

/-- V-C-9: an odd length; the last byte is the high half of its word. -/
theorem test_CSUM_V_C_9 :
    response (step (hosted Config.vectorDefaults [0x01, 0x02, 0x03]
      (ofWords 0x00030006#32 0#32 0#32))) = some (0#32, 0xFBFD0000#32, 0#32, []) := by decide +kernel

/-! ### The ten checks on concrete datagrams -/

theorem passes_iff (p : Half) (B : Bytes) (n : Nat) :
    passes p B (n + 1) ↔ passes p B n ∧ check p B (n + 1) := by
  constructor
  · intro h
    exact ⟨fun k h1 h2 => h k h1 (by omega), h (n + 1) (by omega) (by omega)⟩
  · rintro ⟨h, h'⟩ k h1 h2
    rcases Nat.lt_or_ge n k with hk | hk
    · obtain rfl : k = n + 1 := by omega
      exact h'
    · exact h k h1 hk

theorem passes_zero (p : Half) (B : Bytes) : passes p B 0 := by
  intro k h1 h2
  omega

/-- One datagram per step: the first step that fails is `n` (V-I-1, V-I-4, V-I-6, V-I-11, V-I-13, V-I-16,
V-U-1, V-U-4, `G` for another port, V-U-12). -/
def failing : Nat → Bytes
  | 1 => gBytes.take 19
  | 2 => gBytes.set 0 0x65
  | 3 => gBytes.set 0 0x44
  | 4 => gBytes.set 11 0xCD
  | 5 => gBytes ++ [0x00]
  | 6 => ((gBytes.set 9 0x06).set 10 0x66).set 11 0xD7
  | 7 => ((gBytes.take 27).set 3 0x1B).set 11 0xD1
  | 8 => gBytes.set 25 0x0D
  | 9 => (gBytes.set 22 0x23).set 23 0x29
  | _ => gBytes.set 27 0x52

theorem failing_passes_before (n : Nat) (h1 : 1 ≤ n) (h2 : n ≤ 10) :
    passes 9000#16 (failing n) (n - 1) ∧ ¬ check 9000#16 (failing n) n := by
  interval_cases n <;> simp only [Nat.reduceSub, passes_iff, passes_zero, check, true_and] <;>
    decide +kernel

theorem gBytes_passes : passes 9000#16 gBytes 10 := by
  simp only [passes_iff, passes_zero, check, true_and]
  decide +kernel

theorem gZero_passes : passes 9000#16 gZero 9 := by
  simp only [passes_iff, passes_zero, check, true_and]
  decide +kernel

/-! ### Witnesses: a concrete case that meets the hypotheses of each statement -/

theorem witness_CommandDecodesBack :
    (Instr.wellFormed (.decode { gOps with inLen := 65535 }) &&
     Instr.wellFormed (.encode { eOps with inLen := 65535 }) &&
     Instr.wellFormed (.csum { gOps with inLen := 0 })) = true := by decide

theorem witness_DescriptorEncodesBack : decodeDescriptor gDecode = .ok (.decode gOps) := by decide

theorem witness_ReservedDescriptorsAreRefused :
    (gState.rst = false ∧ gState.txn = none ∧ gState.cmdValid = true) ∧
    cmdOp (ofWords 0x00000007#32 0#32 0#32) = 3#2 ∧
    cmdRaw (ofWords 0x00000000#32 0#32 0#32) = false ∧
    cmdRsv (ofWords 0x00008004#32 0#32 0#32) ≠ 0#12 ∧
    ¬ (cmdOp gState.cmd = 3#2 ∨ cmdRaw gState.cmd = false ∨ cmdRsv gState.cmd ≠ 0#12) := by decide

theorem witness_IgnoredOperandsHaveNoEffect :
    let c' : Operands := ⟨true, 32, 9000#16, 7#16, 9#32⟩
    gOps.inLen = c'.inLen ∧ gOps.port = c'.port ∧ gOps ≠ c' ∧
    (gOps.srcPort = { c' with dstAddrValid := false, srcPort := 0#16 }.srcPort ∧
      gOps.dstAddrValid = { c' with dstAddrValid := false, srcPort := 0#16 }.dstAddrValid ∧
      (gOps.dstAddrValid = true → gOps.dstAddr = c'.dstAddr)) := by decide

theorem witness_ResultDescriptorFields :
    ∀ bytes, (Result.decoded gUdp 1#32 2#16).output = some bytes → bytes.length ≤ 65535 := by
  rintro bytes h
  cases h
  decide

theorem witness_GenerateThenVerify :
    ([] : Bytes).length % 2 = 0 ∧
    (0 < sum1c ([] ++ [0#8, 0#8] ++ [0x12#8]) ∧ sum1c ([] ++ [0#8, 0#8] ++ [0x12#8]) < 0xFFFF) ∧
    sum1c ([0xFF#8, 0xFF#8] ++ [0#8, 0#8] ++ []) = 0xFFFF ∧
    sum1c ([] ++ [0#8, 0#8] ++ []) = 0 := by decide +kernel

theorem witness_SumSplitsAtEvenOffsets :
    [0x01#8, 0x02#8].length % 2 = 0 ∧ (gUdp.take 8).length = 8 := by decide

theorem witness_UdpCheckSpellingsAgree : 0xD653#16 ≠ 0x0000#16 := by decide

theorem witness_WordsPairBytesHighThenLow :
    2 * 1 + 1 < [0x01#8, 0x02#8, 0x03#8, 0x04#8].length ∧ [0x01#8, 0x02#8, 0x03#8].length % 2 = 1 := by decide

theorem witness_CsumCompletes :
    (⟨false, 1500, 0#16, 0#16, 0#32⟩ : Operands).inLen ≤ cState.cfg.maxDgram.toNat := by decide

theorem witness_CsumCornerCases : [0x01#8, 0x02#8].length % 2 = 0 := by decide

/-- Every step of the ten has its datagram: the hypotheses hold with `n` from 1 to 10. -/
theorem witness_DecodeFirstFailingStepDecides (n : Nat) (h1 : 1 ≤ n) (h2 : n ≤ 10) :
    let s := hosted Config.vectorDefaults (failing n) gDecode
    let c : Operands := { gOps with inLen := (failing n).length }
    c.inLen ≤ s.cfg.maxDgram.toNat ∧
      passes c.port (s.input c.inLen) (n - 1) ∧ ¬ check c.port (s.input c.inLen) n := by
  have hin : (hosted Config.vectorDefaults (failing n) gDecode).input (failing n).length = failing n := by
    interval_cases n <;> decide +kernel
  refine ⟨?_, ?_⟩
  · interval_cases n <;> decide +kernel
  · simp only [hin]
    exact failing_passes_before n h1 h2

theorem witness_DecodeDeliversThePayload :
    gOps.inLen ≤ gState.cfg.maxDgram.toNat ∧ passes gOps.port (gState.input gOps.inLen) 10 := by
  have hin : gState.input gOps.inLen = gBytes := by decide +kernel
  exact ⟨by decide, by rw [hin]; exact gBytes_passes⟩

theorem witness_ZeroUdpChecksumIsAccepted :
    passes 9000#16 gZero 9 ∧ num16 gZero (hlenOf gZero + 6) = 0 ∧
    hlenOf gZero + 8 + [1#8, 2#8, 3#8, 4#8].length = gZero.length :=
  ⟨gZero_passes, by decide +kernel, by decide +kernel⟩

/-- `G` and `G` with time to live 65 and the header checksum refitted. -/
theorem witness_UnexaminedHeaderBytesDoNotMatter :
    let B' := ((gBytes.set 8 0x41).set 10 0x65).set 11 0xCC
    gBytes.length = B'.length ∧ check 9000#16 gBytes 4 ∧ check 9000#16 B' 4 ∧
    ∀ i, ¬ (i = 1 ∨ (4 ≤ i ∧ i ≤ 8) ∨ i = 10 ∨ i = 11 ∨ (20 ≤ i ∧ i < hlenOf gBytes)) →
      num8 gBytes i = num8 B' i := by
  refine ⟨by decide, ?_, ?_, ?_⟩
  · simp only [check]; decide +kernel
  · simp only [check]; decide +kernel
  · intro i hi
    have h8 : i ≠ 8 := by omega
    have h10 : i ≠ 10 := by omega
    have h11 : i ≠ 11 := by omega
    simp [num8, List.getD_eq_getElem?_getD, h8.symm, h10.symm, h11.symm]

theorem witness_IpHeaderBitFlips :
    runDecode 9000#16 gBytes = .decoded [0x70, 0x69, 0x6E, 0x67] 0x0A000001#32 5000#16 ∧
    0 < hlenOf gBytes ∧ 19 < hlenOf gBytes ∧
    hlenOf (flipBit gBytes 0 0) < 20 ∧ gBytes.length < hlenOf (flipBit gBytes 0 3) := by decide +kernel

theorem witness_UdpBitFlips :
    (runDecode 9000#16 gBytes = .decoded [0x70, 0x69, 0x6E, 0x67] 0x0A000001#32 5000#16 ∧
      num16 gBytes (hlenOf gBytes + 6) ≠ 0) ∧
    (runDecode 9000#16 gZero = .decoded [0x70, 0x69, 0x6E, 0x67] 0x0A000001#32 5000#16 ∧
      num16 gZero (hlenOf gZero + 6) = 0) ∧
    (hlenOf gBytes = 20 ∧ hlenOf gZero = 20 ∧ gBytes.length = 32 ∧ gZero.length = 32) := by decide +kernel

theorem witness_DecodeOutputBound :
    ∃ B, runDecode 9000#16 B = .decoded [] 0x0A000001#32 5000#16 :=
  ⟨[0x45, 0x00, 0x00, 0x1C, 0x00, 0x00, 0x00, 0x00, 0x40, 0x11, 0x66, 0xD0, 0x0A, 0x00, 0x00, 0x01,
    0x0A, 0x00, 0x00, 0x01, 0x13, 0x88, 0x23, 0x28, 0x00, 0x08, 0xB5, 0x2C], by decide +kernel⟩

theorem witness_EncodeBuildsTheDatagram :
    28 + (⟨true, 1472, 0#16, 0#16, 0#32⟩ : Operands).inLen = eState.cfg.maxDgram.toNat := by decide

theorem witness_EncodeRejectsOversizePayload :
    eState.cfg.maxDgram.toNat < 28 + (⟨true, 1473, 0#16, 0#16, 0#32⟩ : Operands).inLen := by decide

theorem witness_EncodeFailsOnSizeAlone :
    28 + ([] : Bytes).length ≤ ({ Config.vectorDefaults with maxDgram := 28#16 } : Config).maxDgram.toNat ∧
    ¬ 28 + ([] : Bytes).length ≤ ({ Config.vectorDefaults with maxDgram := 27#16 } : Config).maxDgram.toNat := by
  decide

theorem witness_EmittedChecksumsVerify :
    runEncode Config.vectorDefaults eOps [0x70, 0x69, 0x6E, 0x67] = .encoded gBytes := by decide +kernel

theorem witness_EncodeThenDecodeRoundTrip :
    eOps.inLen = [0x70#8, 0x69#8, 0x6E#8, 0x67#8].length ∧
    transact Config.vectorDefaults (encodeDescriptor (.encode eOps)) [0x70, 0x69, 0x6E, 0x67]
      = .ok (.encoded gBytes) := ⟨by decide, by rfl⟩

/-- The state after reset meets the invariant, with something in `IBUF` too. -/
theorem hosted_inv (cfg : Config) (bytes : Bytes) (d : Descriptor) (h : bytes.length ≤ ibufSize) :
    BlockInv cfg.maxDgram.toNat (hosted cfg bytes d) :=
  ⟨Nat.le_refl _, Memory.overlay_wf (Memory.wf_nil _ _) h, Memory.wf_nil _ _, by simp [hosted], by simp [hosted]⟩

theorem witness_RoundTripOnTheMachine :
    BlockInv eState.cfg.maxDgram.toNat eState ∧ eState.rst = false ∧ eState.txn = none ∧ eState.rspReady = true ∧
    28 + eOps.inLen ≤ eState.cfg.maxDgram.toNat :=
  ⟨hosted_inv _ _ _ (by decide), by decide, by decide, by decide, by decide⟩

theorem witness_StepRunsTheDecodedCommand :
    decodeDescriptor gDecode = .ok (.decode gOps) ∧
    (gRunning.rst = false ∧ gRunning.txn = some (.running gDecode)) ∧
    (gState.rst = false ∧ gState.txn = none ∧ gState.cmdValid = true ∧ gState.cmd = gDecode) := by decide

/-- The same state meets the hypotheses of StepRefinesExec, where the host is ready and where not. -/
theorem witness_StepRefinesExec :
    (gState.rst = false ∧ gState.txn = none ∧ gState.cmdValid = true ∧ gState.rspReady = true) ∧
    ({ gState with rspReady := false } : State).rspReady = false := by decide

theorem witness_StepKeepsTheInvariant : BlockInv 1500 gState ∧ ∃ t, step gState = .next t :=
  ⟨hosted_inv Config.vectorDefaults gBytes gDecode (by decide), exists_next (by decide +kernel)⟩

theorem witness_HostActionsKeepTheInvariant :
    BlockInv 1500 gState ∧ (∃ t, hostAct (.fill [1#8, 0#8, 2#8]) gState = .next t) ∧
    (∃ t, hostAct .handshake gState = .next t) ∧
    (∃ t, hostAct (.configure { Config.vectorDefaults with maxDgram := 3#16 }) gState = .next t) ∧
    ({ Config.vectorDefaults with maxDgram := 3#16 } : Config).maxDgram.toNat ≤ 1500 :=
  ⟨hosted_inv Config.vectorDefaults gBytes gDecode (by decide), exists_next (by decide +kernel),
    exists_next (by decide +kernel), exists_next (by decide +kernel), by decide⟩

theorem witness_CommandFrame :
    (∃ t, exec (.decode gOps) gRunning = .next t) ∧ (∃ t, exec (.encode eOps) eState.accept = .next t) ∧
    (∃ t, exec (.csum { gOps with inLen := 20 }) cState.accept = .next t) ∧
    gRunning.rspReady = true ∧ gOffered.rspReady = false :=
  ⟨exists_next (by decide +kernel), exists_next (by decide +kernel), exists_next (by decide +kernel),
    by decide, by decide⟩

theorem witness_ErrorsLeaveNoTrace :
    let s := (hosted Config.vectorDefaults (failing 2) gDecode).accept
    let w := { s with rspReady := false }
    ((next? (exec (.decode gOps) s)).bind State.delivered = some (Result.err .badVersion).pack ∧
      (next? (exec (.decode gOps) w)).bind State.txn = some (.offered (Result.err .badVersion).pack)) ∧
    rspStatus (Result.err .badVersion).pack ≠ 0#4 := by decide +kernel

/-- Two histories: another `OBUF`, another last result, other bytes of `IBUF` beyond `in_len`. -/
theorem witness_OutcomeIsIndependentOfHistory :
    let s := gState
    let s' := { hosted Config.vectorDefaults (gBytes ++ [7#8]) 0#96 with
      obuf := [(0, 1#8)], obufEpoch := 5, delivered := some 0#96 }
    s.cfg = s'.cfg ∧ s.rspReady = s'.rspReady ∧
    Memory.wf ibufSize (some ibufUnlisted) s.ibuf = true ∧
    Memory.wf ibufSize (some ibufUnlisted) s'.ibuf = true ∧
    (∀ a, a < (Instr.decode gOps).operands.inLen → s.ibufByte a = s'.ibufByte a) ∧
    ∃ t, exec (.decode gOps) s = .next t :=
  ⟨by decide, by decide, by decide +kernel, by decide +kernel, by decide +kernel,
    exists_next (by decide +kernel)⟩

theorem witness_AcceptedCommandIsLatched :
    gRunning.txn = some (.running gDecode) ∧ ∃ t, step gRunning = .next t :=
  ⟨by decide, exists_next (by decide +kernel)⟩

theorem witness_ResetAbandonsTheCommandInFlight :
    (({ gState with rst := true } : State).rst = true ∧ ({ gState with rst := true } : State).txn = none) ∧
    (({ gRunning with rst := true } : State).rst = true ∧ ({ gRunning with rst := true } : State).txn ≠ none) := by
  decide

theorem witness_TransactionHandshake :
    (gOffered.rst = false ∧ gOffered.txn = some (.offered (Result.err .badVersion).pack) ∧
      gOffered.rspReady = false ∧ ({ gOffered with rspReady := true } : State).rspReady = true) ∧
    (State.reset.rst = false ∧ State.reset.txn = none ∧ State.reset.cmdValid = false) := by decide

theorem witness_AcceptedCommandsComplete :
    gRunning.rst = false ∧ gRunning.rspReady = true ∧ gRunning.txn = some (.running gDecode) ∧
    ∀ why, transact gRunning.cfg gDecode (gRunning.input (operandsOf gDecode).inLen) ≠ .error why := by
  refine ⟨by decide, by decide, by decide, fun why h => ?_⟩
  have : (transact gRunning.cfg gDecode (gRunning.input (operandsOf gDecode).inLen)).toOption.isSome = true := by
    decide +kernel
  rw [h] at this
  cases this

theorem witness_RepeatedCommandRepeatsItsResult :
    State.reset.rst = false ∧ State.reset.txn = none ∧ State.reset.rspReady = true ∧
    ∃ t, issue (encodeDescriptor (.encode eOps)) State.reset = .next t :=
  ⟨by decide, by decide, by decide, exists_next (by decide +kernel)⟩

theorem witness_HostDutiesInFlight :
    gRunning.txn = some (.running gDecode) ∧
    gOffered.txn = some (.offered (Result.err .badVersion).pack) := by decide

theorem witness_InputIsTheStartOfIbuf :
    Memory.wf ibufSize (some ibufUnlisted) gState.ibuf = true := by decide +kernel

theorem witness_FilledBytesAreTheInput :
    Memory.wf ibufSize (some ibufUnlisted) gState.ibuf = true ∧ gState.txn = none ∧
    [0#8, 5#8, 0#8].length ≤ 65535 := by decide +kernel

/-- Each clause at its boundary: in flight at 1500 and 1499; idle at both, with `MAX_DGRAM` 3 and a last
result of 4 bytes at 4 and at 3, beyond `MAX_DGRAM`. -/
theorem witness_HostViewOfObuf :
    (gRunning.txn ≠ none ∧ gRunning.cfg.maxDgram.toNat ≤ 1500 ∧ 1499 < gRunning.cfg.maxDgram.toNat) ∧
    (gState.txn = none ∧ gState.cfg.maxDgram.toNat ≤ 1500 ∧ gState.lastOutLen ≤ 1500 ∧
      1499 < gState.cfg.maxDgram.toNat) ∧
    (gShrunk.txn = none ∧ gShrunk.cfg.maxDgram.toNat ≤ 3 ∧ gShrunk.lastOutLen = 4) := by decide

theorem witness_OutputStaysUntilTheNextCommand :
    (gDone.txn = none ∧ gShrunk.txn = none ∧ gDone.lastOutLen = 4 ∧ gDone.cmdValid = false) ∧
    next? (hostAct (.configure { Config.vectorDefaults with maxDgram := 3#16 }) gDone) = some gShrunk ∧
    next? (step gDone) = some gDone := by decide +kernel

/-- R239: the payload of a delivered `DECODE` is still read after `MAX_DGRAM` fell below it. -/
theorem test_output_outlives_configuration (any : Byte) :
    gShrunk.hostObuf 3 any = .ok 0x67#8 ∧ gShrunk.hostObuf 4 any = .error .obufAddress := by
  constructor <;> rfl

/-- R239, U10: `rsp` is unspecified while the result is offered and not taken. -/
theorem test_rsp_unspecified_before_delivery (any : Descriptor) :
    gOffered.rspPort any = any ∧
    ({ gOffered with rspReady := true } : State).rspPort any = (Result.err .badVersion).pack := by
  constructor <;> rfl

theorem witness_CommandLinesIssueTheirDescriptor :
    ((Line.csum 65535).command.map (fun i => i.operands.inLen)) = some 65535 ∧
    ((Line.csum 65536).command.map (fun i => i.operands.inLen)) = some 65536 := by decide

end Sys2Proof.Tests
end

section
/-!
SUPPORT. The fields of a result, how a command ends, a step in terms of `Exec`, what the buffers read as,
and what keeps the invariant.
-/

namespace Sys2Proof.Machine

/-! ### The fields of a result descriptor (30_encoding.md R86) -/

section PackResult
variable (status : BitVec 4) (outLen srcPort csum : Half) (srcAddr : Addr)

@[simp] theorem rspStatus_packResult :
    rspStatus (packResult status outLen srcPort csum srcAddr) = status := by
  refine BitVec.eq_of_getLsbD_eq fun i hi => ?_
  rw [rspStatus, BitVec.getLsbD_extractLsb', getLsbD_packResult]
  grind

@[simp] theorem rspZero_packResult :
    rspZero (packResult status outLen srcPort csum srcAddr) = 0#12 := by
  refine BitVec.eq_of_getLsbD_eq fun i hi => ?_
  rw [rspZero, BitVec.getLsbD_extractLsb', getLsbD_packResult]
  grind

@[simp] theorem rspOutLen_packResult :
    rspOutLen (packResult status outLen srcPort csum srcAddr) = outLen := by
  refine BitVec.eq_of_getLsbD_eq fun i hi => ?_
  rw [rspOutLen, BitVec.getLsbD_extractLsb', getLsbD_packResult]
  grind

@[simp] theorem rspSrcPort_packResult :
    rspSrcPort (packResult status outLen srcPort csum srcAddr) = srcPort := by
  refine BitVec.eq_of_getLsbD_eq fun i hi => ?_
  rw [rspSrcPort, BitVec.getLsbD_extractLsb', getLsbD_packResult]
  grind

@[simp] theorem rspCsum_packResult :
    rspCsum (packResult status outLen srcPort csum srcAddr) = csum := by
  refine BitVec.eq_of_getLsbD_eq fun i hi => ?_
  rw [rspCsum, BitVec.getLsbD_extractLsb', getLsbD_packResult]
  grind

@[simp] theorem rspSrcAddr_packResult :
    rspSrcAddr (packResult status outLen srcPort csum srcAddr) = srcAddr := by
  refine BitVec.eq_of_getLsbD_eq fun i hi => ?_
  rw [rspSrcAddr, BitVec.getLsbD_extractLsb', getLsbD_packResult]
  grind

end PackResult

/-! ### Outputs that fit -/

/-- An outcome's output, where it has one, has at most `cap` bytes. -/
def Result.Fits (cap : Nat) (r : Result) : Prop :=
  ∀ bytes, r.output = some bytes → bytes.length ≤ cap

theorem Result.Fits.mono {cap cap' : Nat} {r : Result} (h : r.Fits cap) (hc : cap ≤ cap') :
    r.Fits cap' :=
  fun bytes hb => Nat.le_trans (h bytes hb) hc

theorem Result.fits_err (cap : Nat) (k : ErrorKind) : (Result.err k).Fits cap := by
  intro _ h
  cases h

theorem Result.fits_summed (cap : Nat) (c : Half) : (Result.summed c).Fits cap := by
  intro _ h
  cases h

theorem Result.fits_encoded {cap : Nat} {G : Bytes} (h : G.length ≤ cap) : (Result.encoded G).Fits cap := by
  rintro _ ⟨⟩
  exact h

theorem Result.fits_decoded {cap : Nat} {p : Bytes} (h : p.length ≤ cap) (a : Addr) (q : Half) :
    (Result.decoded p a q).Fits cap := by
  rintro _ ⟨⟩
  exact h

/-- The payload of a `DECODE` is a part of its input. -/
theorem udpParse_fits (port : Half) (B : Bytes) (ip : IpOk) : (udpParse port B ip).Fits B.length := by
  unfold udpParse
  split
  · exact Result.fits_err _ _
  split
  · exact Result.fits_err _ _
  split
  · exact Result.fits_err _ _
  split
  · exact Result.fits_err _ _
  · refine Result.fits_decoded ?_ _ _
    simp only [List.length_take, List.length_drop]
    omega

theorem runDecode_fits (port : Half) (B : Bytes) : (runDecode port B).Fits B.length := by
  unfold runDecode
  split
  · exact Result.fits_err _ _
  · exact udpParse_fits _ _ _

theorem runEncode_fits (cfg : Config) (c : Operands) (P : Bytes) :
    (runEncode cfg c P).Fits cfg.maxDgram.toNat := by
  unfold runEncode
  split
  · exact Result.fits_err _ _
  · refine Result.fits_encoded ?_
    rw [datagram_length]
    omega

theorem underDuty_ok_iff (cfg : Config) (n : Nat) (r r' : Result) :
    underDuty cfg n r = .ok r' ↔ n ≤ cfg.maxDgram.toNat ∧ r = r' := by
  unfold underDuty
  split <;> simp_all

theorem underDuty_error_iff (cfg : Config) (n : Nat) (r : Result) (why : Refusal) :
    underDuty cfg n r = .error why ↔ why = .inLenAboveMaxDgram ∧ cfg.maxDgram.toNat < n := by
  unfold underDuty
  split
  · have : ¬ cfg.maxDgram.toNat < n := by omega
    simp [this]
  · have : cfg.maxDgram.toNat < n := by omega
    simp [this, eq_comm]

/-- R64, R194: what a command puts out fits in `OBUF`. -/
theorem outcomeOf_fits {cfg : Config} {i : Instr} {B : Bytes} {r : Result}
    (hB : B.length = i.operands.inLen) (h : outcomeOf cfg i B = .ok r) : r.Fits cfg.maxDgram.toNat := by
  cases i with
  | decode c =>
    obtain ⟨hduty, rfl⟩ := (underDuty_ok_iff ..).1 h
    exact (runDecode_fits c.port B).mono (hB.trans_le hduty)
  | encode c =>
    obtain rfl : runEncode cfg c B = r := Except.ok.inj h
    exact runEncode_fits cfg c B
  | csum c =>
    obtain ⟨-, rfl⟩ := (underDuty_ok_iff ..).1 h
    exact Result.fits_summed _ _

/-- R86, R201: the packing of an outcome whose output fits is a result the block may produce. -/
theorem legalRsp_pack {cap : Nat} {r : Result} (h : r.Fits cap) : legalRsp cap r.pack := by
  have hlen : ∀ bytes : Bytes, bytes.length ≤ cap → bytes.length % 65536 ≤ cap :=
    fun bytes hb => Nat.le_trans (Nat.mod_le _ _) hb
  cases r with
  | decoded p a q => simpa [legalRsp, Result.pack] using hlen p (h p rfl)
  | encoded G => simpa [legalRsp, Result.pack] using hlen G (h G rfl)
  | summed c => simp [legalRsp, Result.pack]
  | err k =>
    have hcode : k.code.toNat ≤ 9 := by cases k <;> decide
    simpa [legalRsp, Result.pack] using hcode

/-- `out_len` counts the bytes of the output (R86). -/
theorem rspOutLen_pack {r : Result} (h : r.Fits 65535) :
    (rspOutLen r.pack).toNat = (r.output.map List.length).getD 0 := by
  cases r with
  | decoded p a q =>
    have := h p rfl
    simp [Result.pack, Result.output]
    omega
  | encoded G =>
    have := h G rfl
    simp [Result.pack, Result.output]
    omega
  | summed c => simp [Result.pack, Result.output]
  | err k => simp [Result.pack, Result.output]

/-! ### How a command ends -/

/-- `OBUF` once an outcome's output stands in it; without an output it is as before. -/
def State.withOutput (s : State) (r : Result) : State :=
  match r.output with
  | some bytes => s.putObuf bytes
  | none => s

/-- The state a command with this outcome leaves: its output in `OBUF`, its result out. -/
def State.finish (s : State) (r : Result) : State := (s.withOutput r).offer r.pack

section Finish
variable (s : State) (r : Result)

theorem State.withOutput_of_some {bytes : Bytes} (h : r.output = some bytes) :
    s.withOutput r = s.putObuf bytes := by simp [State.withOutput, h]

theorem State.withOutput_of_none (h : r.output = none) : s.withOutput r = s := by
  simp [State.withOutput, h]

@[simp] theorem State.withOutput_cfg : (s.withOutput r).cfg = s.cfg := by
  unfold State.withOutput; split <;> rfl
@[simp] theorem State.withOutput_rst : (s.withOutput r).rst = s.rst := by
  unfold State.withOutput; split <;> rfl
@[simp] theorem State.withOutput_cmdValid : (s.withOutput r).cmdValid = s.cmdValid := by
  unfold State.withOutput; split <;> rfl
@[simp] theorem State.withOutput_cmd : (s.withOutput r).cmd = s.cmd := by
  unfold State.withOutput; split <;> rfl
@[simp] theorem State.withOutput_rspReady : (s.withOutput r).rspReady = s.rspReady := by
  unfold State.withOutput; split <;> rfl
@[simp] theorem State.withOutput_ibuf : (s.withOutput r).ibuf = s.ibuf := by
  unfold State.withOutput; split <;> rfl
@[simp] theorem State.withOutput_delivered : (s.withOutput r).delivered = s.delivered := by
  unfold State.withOutput; split <;> rfl

@[simp] theorem State.finish_cfg : (s.finish r).cfg = s.cfg := by simp [State.finish]
@[simp] theorem State.finish_rst : (s.finish r).rst = s.rst := by simp [State.finish]
@[simp] theorem State.finish_cmdValid : (s.finish r).cmdValid = s.cmdValid := by simp [State.finish]
@[simp] theorem State.finish_cmd : (s.finish r).cmd = s.cmd := by simp [State.finish]
@[simp] theorem State.finish_rspReady : (s.finish r).rspReady = s.rspReady := by simp [State.finish]
@[simp] theorem State.finish_ibuf : (s.finish r).ibuf = s.ibuf := by simp [State.finish]
@[simp] theorem State.finish_ibufByte (a : Nat) : (s.finish r).ibufByte a = s.ibufByte a := by
  simp [State.ibufByte]
@[simp] theorem State.finish_input (n : Nat) : (s.finish r).input n = s.input n := by
  simp [State.input]

variable {s r}

theorem State.finish_txn_of_ready (h : s.rspReady = true) : (s.finish r).txn = none := by
  simp [State.finish, State.offer_of_ready, h]

theorem State.finish_delivered_of_ready (h : s.rspReady = true) :
    (s.finish r).delivered = some r.pack := by
  simp [State.finish, State.offer_of_ready, h]

theorem State.finish_txn_of_not_ready (h : s.rspReady = false) :
    (s.finish r).txn = some (.offered r.pack) := by
  simp [State.finish, State.offer_of_not_ready, h]

theorem State.finish_delivered_of_not_ready (h : s.rspReady = false) :
    (s.finish r).delivered = s.delivered := by
  simp [State.finish, State.offer_of_not_ready, h]

/-- A descriptor that left the block, delivered or offered as the host's readiness has it, is the
packing of the outcome. -/
theorem State.finish_result {d : Descriptor}
    (hready : s.rspReady = true → (s.finish r).delivered = some d)
    (hnot : s.rspReady = false → (s.finish r).txn = some (.offered d)) : d = r.pack := by
  cases h : s.rspReady with
  | true => simpa [State.finish_delivered_of_ready h, eq_comm] using hready h
  | false => simpa [State.finish_txn_of_not_ready h, eq_comm] using hnot h

theorem State.finish_obuf_of_none (h : r.output = none) :
    (s.finish r).obuf = s.obuf ∧ (s.finish r).obufEpoch = s.obufEpoch := by
  simp [State.finish, State.withOutput_of_none s r h]

theorem State.finish_obufByte_of_none (h : r.output = none) (a : Nat) :
    (s.finish r).obufByte a = s.obufByte a := by
  simp only [State.obufByte, State.finish_obuf_of_none h]

theorem State.finish_obufByte {bytes : Bytes} (h : r.output = some bytes) {a : Nat}
    (ha : a < bytes.length) : (s.finish r).obufByte a = bytes[a] := by
  simp [State.finish, State.withOutput_of_some s r h, State.putObuf_obufByte, ha]

/-- `OBUF[0 : out_len]` after a command is its output (R86). -/
theorem State.finish_output {bytes : Bytes} (h : r.output = some bytes) :
    (s.finish r).output bytes.length = bytes := by
  refine List.ext_getElem (by simp [State.output]) fun a _ ha => ?_
  simpa [State.output] using State.finish_obufByte h ha

/-- Two commands with the same outcome leave the same `OBUF[0 : out_len]`, whatever stood there. -/
theorem State.finish_obufByte_eq (s s' : State) (hfit : r.Fits 65535) {a : Nat}
    (ha : a < (rspOutLen r.pack).toNat) : (s.finish r).obufByte a = (s'.finish r).obufByte a := by
  rw [rspOutLen_pack hfit] at ha
  cases ho : r.output with
  | none => simp [ho] at ha
  | some bytes =>
    replace ha : a < bytes.length := by simpa [ho] using ha
    rw [State.finish_obufByte ho ha, State.finish_obufByte ho ha]

end Finish

/-- A command whose output fits ends without a fault (R64). -/
theorem State.conclude_ok {s : State} {r : Result} (h : r.Fits s.capacity) :
    s.conclude (.ok r) = .next (s.finish r) := by
  cases r with
  | decoded p a q => exact if_pos (h p rfl)
  | encoded G => exact if_pos (h G rfl)
  | summed c => rfl
  | err k => rfl

@[simp] theorem State.conclude_error (s : State) (why : Refusal) :
    s.conclude (.error why) = .refused why := rfl

theorem exec_of_outcome {i : Instr} {s : State} {r : Result}
    (h : outcomeOf s.cfg i (s.input i.operands.inLen) = .ok r) : exec i s = .next (s.finish r) := by
  rw [exec_eq_conclude, h, State.conclude_ok (outcomeOf_fits (s.input_length _) h)]

theorem exec_next_iff (i : Instr) (s t : State) :
    exec i s = .next t ↔ ∃ r, outcomeOf s.cfg i (s.input i.operands.inLen) = .ok r ∧ t = s.finish r := by
  cases h : outcomeOf s.cfg i (s.input i.operands.inLen) with
  | error why => simp [exec_eq_conclude, h]
  | ok r => simp [exec_of_outcome h, eq_comm]

theorem exec_refused_iff (i : Instr) (s : State) (why : Refusal) :
    exec i s = .refused why ↔ outcomeOf s.cfg i (s.input i.operands.inLen) = .error why := by
  cases h : outcomeOf s.cfg i (s.input i.operands.inLen) with
  | error why' => simp [exec_eq_conclude, h]
  | ok r => simp [exec_of_outcome h]

/-! ### A step in terms of `Exec` (R39) -/

theorem decodeDescriptor_operands {d : Descriptor} {i : Instr} (h : decodeDescriptor d = .ok i) :
    i.operands = operandsOf d := by
  unfold decodeDescriptor at h
  split at h
  · cases h; rfl
  split at h
  · cases h; rfl
  split at h
  · cases h; rfl
  · cases h

theorem transact_of_decode {d : Descriptor} {i : Instr} (h : decodeDescriptor d = .ok i) (cfg : Config)
    (B : Bytes) : transact cfg d B = outcomeOf cfg i B := by
  cases i <;> simp [transact, h, outcomeOf]

theorem transact_of_reserved {d : Descriptor} {why : ReservedReason} (h : decodeDescriptor d = .error why)
    (cfg : Config) (B : Bytes) : transact cfg d B = .error (.reservedDescriptor why) := by
  simp [transact, h]

theorem transact_fits {cfg : Config} {d : Descriptor} {B : Bytes} {r : Result}
    (hB : B.length = (operandsOf d).inLen) (h : transact cfg d B = .ok r) : r.Fits cfg.maxDgram.toNat := by
  cases hd : decodeDescriptor d with
  | error why => simp [transact_of_reserved hd] at h
  | ok i =>
    rw [transact_of_decode hd] at h
    exact outcomeOf_fits (by rw [hB, decodeDescriptor_operands hd]) h

theorem State.fetch_running {s : State} {d : Descriptor} (h : s.txn = some (.running d)) :
    s.fetch = some (d, s) := by simp [State.fetch, h]

theorem State.fetch_presented {s : State} (h : s.txn = none) (hv : s.cmdValid = true) :
    s.fetch = some (s.cmd, s.accept) := by simp [State.fetch, h, hv]

theorem step_of_fetch {s s' : State} {d : Descriptor} {i : Instr} (hr : s.rst = false)
    (hf : s.fetch = some (d, s')) (hd : decodeDescriptor d = .ok i) : step s = exec i s' := by
  simp [step, hr, hf, hd]

theorem step_of_fetch_none {s : State} (hr : s.rst = false) (hf : s.fetch = none) :
    step s = .next s.deliver := by
  simp [step, hr, hf]

/-- A step that has a command to run concludes with what `Exec` says of it. -/
theorem step_eq_conclude {s s' : State} {d : Descriptor} (hr : s.rst = false)
    (hf : s.fetch = some (d, s')) :
    step s = s'.conclude (transact s'.cfg d (s'.input (operandsOf d).inLen)) := by
  cases hd : decodeDescriptor d with
  | error why => simp [step, hr, hf, hd, transact_of_reserved hd]
  | ok i => rw [step_of_fetch hr hf hd, exec_eq_conclude, transact_of_decode hd, decodeDescriptor_operands hd]

theorem step_of_transact_ok {s s' : State} {d : Descriptor} {r : Result} (hr : s.rst = false)
    (hf : s.fetch = some (d, s')) (h : transact s'.cfg d (s'.input (operandsOf d).inLen) = .ok r) :
    step s = .next (s'.finish r) := by
  rw [step_eq_conclude hr hf, h, State.conclude_ok (transact_fits (s'.input_length _) h)]

theorem step_of_transact_error {s s' : State} {d : Descriptor} {why : Refusal} (hr : s.rst = false)
    (hf : s.fetch = some (d, s')) (h : transact s'.cfg d (s'.input (operandsOf d).inLen) = .error why) :
    step s = .refused why := by
  rw [step_eq_conclude hr hf, h, State.conclude_error]

@[simp] theorem State.accept_input (s : State) (n : Nat) : s.accept.input n = s.input n := rfl

/-- The state in which an issued descriptor runs: presented, accepted and latched. -/
def State.issued (s : State) (d : Descriptor) : State :=
  ({ s with cmdValid := true, cmd := d } : State).accept

@[simp] theorem State.issued_cfg (s : State) (d : Descriptor) : (s.issued d).cfg = s.cfg := rfl
@[simp] theorem State.issued_rst (s : State) (d : Descriptor) : (s.issued d).rst = s.rst := rfl
@[simp] theorem State.issued_rspReady (s : State) (d : Descriptor) : (s.issued d).rspReady = s.rspReady := rfl
@[simp] theorem State.issued_input (s : State) (d : Descriptor) (n : Nat) :
    (s.issued d).input n = s.input n := rfl

/-- Issuing a descriptor to an idle block out of reset concludes with what `Exec` says of it. -/
theorem issue_eq_conclude {s : State} (hr : s.rst = false) (hn : s.txn = none) (d : Descriptor) :
    issue d s = (s.issued d).conclude (transact s.cfg d (s.input (operandsOf d).inLen)) :=
  step_eq_conclude (s := { s with cmdValid := true, cmd := d }) hr (State.fetch_presented hn rfl)

theorem issue_next_iff {s : State} (hr : s.rst = false) (hn : s.txn = none) (d : Descriptor) (t : State) :
    issue d s = .next t ↔ ∃ r, transact s.cfg d (s.input (operandsOf d).inLen) = .ok r ∧
      t = (s.issued d).finish r := by
  rw [issue_eq_conclude hr hn]
  cases hx : transact s.cfg d (s.input (operandsOf d).inLen) with
  | error why => simp
  | ok r => simp [State.conclude_ok (s := s.issued d) (transact_fits (s.input_length _) hx), eq_comm]

/-! ### Reading the buffers back -/

theorem Memory.at?_eq_none {m : Memory} {x : Nat} (h : ∀ c ∈ m, x < c.1) : Memory.at? m x = none := by
  induction m with
  | nil => rfl
  | cons c m ih =>
    have hc : c.1 ≠ x := (h c List.mem_cons_self).ne'
    simp [Memory.at?, hc, ih fun c' hc' => h c' (List.mem_cons_of_mem c hc')]

/-- A slice of a canonical buffer is its bytes one after the other. -/
theorem Memory.slice_eq_map (u : Byte) (n : Nat) :
    ∀ {m : Memory} {a : Nat}, m.Pairwise (fun c c' => c.1 < c'.1) → (∀ c ∈ m, a ≤ c.1) →
      Memory.slice u m a n = (List.range' a n).map fun x => (Memory.at? m x).getD u := by
  induction n with
  | zero => simp [Memory.slice]
  | succ n ih =>
    intro m a hm ha
    cases m with
    | nil => simp [Memory.slice, List.range'_succ, Memory.at?, ih List.Pairwise.nil]
    | cons c m =>
      obtain ⟨k, b⟩ := c
      obtain ⟨hk, hm'⟩ := List.pairwise_cons.1 hm
      have hak : a ≤ k := ha (k, b) List.mem_cons_self
      rw [List.range'_succ, List.map_cons, Memory.slice]
      split
      case isTrue h =>
        subst h
        rw [ih hm' fun c hc => hk c hc]
        simp only [Memory.at?, ↓reduceIte, Option.getD_some, List.cons.injEq, true_and]
        refine List.map_congr_left fun x hx => ?_
        have : k ≠ x := by have := List.mem_range'_1.1 hx; omega
        simp [this]
      case isFalse h =>
        have hlt : ∀ c ∈ (k, b) :: m, a < c.1 := by
          intro c hc
          rcases List.mem_cons.1 hc with rfl | hc
          · exact Nat.lt_of_le_of_ne hak (Ne.symm h)
          · exact Nat.lt_of_le_of_lt hak (hk c hc)
        rw [ih hm hlt, Memory.at?_eq_none hlt, Option.getD_none]

theorem State.input_eq_map {s : State} (h : Memory.wf ibufSize (some ibufUnlisted) s.ibuf = true)
    (n : Nat) : s.input n = (List.range n).map s.ibufByte := by
  obtain ⟨hrising, -⟩ := (Memory.wf_iff ..).1 h
  rw [State.input, Memory.slice_eq_map _ n hrising fun _ _ => Nat.zero_le _, List.range_eq_range']
  rfl

/-- The input of a command is the same where the bytes it may read are. -/
theorem State.input_congr {s s' : State} {n : Nat}
    (h : Memory.wf ibufSize (some ibufUnlisted) s.ibuf = true)
    (h' : Memory.wf ibufSize (some ibufUnlisted) s'.ibuf = true)
    (hb : ∀ a, a < n → s.ibufByte a = s'.ibufByte a) : s.input n = s'.input n := by
  rw [State.input_eq_map h, State.input_eq_map h']
  exact List.map_congr_left fun a ha => hb a (List.mem_range.1 ha)

/-- What a buffer reads as once `bytes` stands at its start. -/
theorem Memory.at?_overlay (u : Byte) (bytes : Bytes) (m : Memory) (x : Nat) :
    (Memory.at? (Memory.overlay (some u) bytes m) x).getD u =
      (bytes[x]?).getD ((Memory.at? m x).getD u) := by
  rw [Memory.overlay, Memory.at?_append, Memory.at?_cellsFrom, Memory.at?_filter_ge]
  rcases Nat.lt_or_ge x bytes.length with hx | hx
  · have : ¬ bytes.length ≤ x := by omega
    by_cases hb : bytes[x] = u <;> simp [this, hx, hb, Option.filter]
  · simp [hx]

/-! ### The operands `ENCODE` reads (R21) -/

/-- The datagram depends on the ports and the resolved destination only. -/
theorem datagram_congr (cfg : Config) {c c' : Operands} (P : Bytes) (hp : c.port = c'.port)
    (hs : c.srcPort = c'.srcPort) (hd : resolvedDst cfg c = resolvedDst cfg c') :
    datagram cfg c P = datagram cfg c' P := by
  simp only [datagram, ipHeader, ipChecksum, udpHeader, udpChecksum, hp, hs, hd]

theorem resolvedDst_congr (cfg : Config) {c c' : Operands} (hv : c.dstAddrValid = c'.dstAddrValid)
    (hd : c.dstAddrValid = true → c.dstAddr = c'.dstAddr) : resolvedDst cfg c = resolvedDst cfg c' := by
  unfold resolvedDst
  rw [← hv]
  split
  · exact hd ‹_›
  · rfl

/-! ### The invariant -/

theorem BlockInv.offer {cap : Nat} {s : State} {r : Descriptor} (h : BlockInv cap s)
    (hr : legalRsp s.capacity r) : BlockInv cap (s.offer r) := by
  cases hy : s.rspReady with
  | true =>
    rw [State.offer_of_ready hy]
    refine ⟨h.bound, h.ibuf, h.obuf, by simp, ?_⟩
    rintro _ ⟨⟩
    exact legalRsp_mono hr h.bound
  | false =>
    rw [State.offer_of_not_ready hy]
    refine ⟨h.bound, h.ibuf, h.obuf, ?_, h.delivered⟩
    rintro _ ⟨⟩
    exact hr

theorem BlockInv.putObuf {cap : Nat} {s : State} {bytes : Bytes} (h : BlockInv cap s)
    (hb : bytes.length ≤ s.capacity) : BlockInv cap (s.putObuf bytes) :=
  ⟨h.bound, h.ibuf, Memory.cellsFrom_wf (Nat.le_trans hb h.bound), h.offered, h.delivered⟩

theorem BlockInv.exec {cap : Nat} {i : Instr} {s t : State} (h : BlockInv cap s)
    (he : exec i s = .next t) : BlockInv cap t := by
  obtain ⟨r, ho, hend⟩ := exec_next he
  have hlegal : legalRsp s.capacity r.pack := legalRsp_pack (outcomeOf_fits (s.input_length _) ho)
  rcases hend with ⟨bytes, -, hb, rfl⟩ | ⟨-, rfl⟩
  · exact (h.putObuf hb).offer hlegal
  · exact h.offer hlegal

theorem BlockInv.accept {cap : Nat} {s : State} (h : BlockInv cap s) : BlockInv cap s.accept :=
  ⟨h.bound, h.ibuf, h.obuf, by simp, h.delivered⟩

theorem BlockInv.fetch {cap : Nat} {s s' : State} {d : Descriptor} (h : BlockInv cap s)
    (hf : s.fetch = some (d, s')) : BlockInv cap s' := by
  rcases State.fetch_some hf with ⟨-, rfl⟩ | ⟨-, -, -, rfl⟩
  · exact h
  · exact h.accept

theorem BlockInv.deliver {cap : Nat} {s : State} (h : BlockInv cap s) : BlockInv cap s.deliver := by
  unfold State.deliver
  split
  · rename_i r hr
    exact h.offer (h.offered r hr)
  · exact h

theorem BlockInv.resetBlock {cap : Nat} {s : State} (h : BlockInv cap s) : BlockInv cap s.resetBlock := by
  unfold State.resetBlock
  split
  · exact h
  · exact ⟨h.bound, h.ibuf, Memory.wf_nil _ _, by simp, h.delivered⟩

theorem BlockInv.fill {cap : Nat} {s t : State} {bytes : Bytes} (h : BlockInv cap s)
    (hf : s.fill bytes = .next t) : BlockInv cap t := by
  obtain ⟨hlen, rfl⟩ := (State.fill_next_iff ..).1 hf
  exact ⟨h.bound, Memory.overlay_wf h.ibuf hlen, h.obuf, h.offered, h.delivered⟩

/-- The invariant says nothing of the levels the host drives on its ports. -/
theorem BlockInv.drivePorts {cap : Nat} {s : State} (h : BlockInv cap s) (rst cmdValid : Bool)
    (cmd : Descriptor) (rspReady : Bool) :
    BlockInv cap { s with rst := rst, cmdValid := cmdValid, cmd := cmd, rspReady := rspReady } :=
  ⟨h.bound, h.ibuf, h.obuf, h.offered, h.delivered⟩

end Sys2Proof.Machine
end

section
/-! SUPPORT. The statements of 10_state.md, settled in the order of their tiers. -/

namespace Sys2Proof.Machine

/-- Settles O37, by what a step can do: reset the block, deliver an offered result, or run a command. -/
theorem stepKeepsTheInvariant : Obligations.StepKeepsTheInvariant := by
  intro cap s t h hstep
  rcases step_next hstep with ⟨-, rfl⟩ | ⟨-, -, rfl⟩ | ⟨-, d, s', i, hf, -, he⟩
  · exact h.resetBlock
  · exact h.deliver
  · exact (h.fetch hf).exec he

/-- Settles O39, one action of the host at a time: only a configuration, a write of a buffer and the
handshake change anything the invariant speaks of. -/
theorem hostActionsKeepTheInvariant : Obligations.HostActionsKeepTheInvariant := by
  intro cap a s t h hact hcfg
  cases a with
  | configure cfg =>
    cases hs : s.txn with
    | some x => simp [hostAct, State.busy, hs] at hact
    | none =>
      obtain rfl : { s with cfg := cfg } = t := by simpa [hostAct, State.busy, hs] using hact
      exact ⟨hcfg cfg rfl, h.ibuf, h.obuf, by simp [hs], h.delivered⟩
  | fill bytes =>
    rw [hostAct] at hact
    split at hact
    · cases hact
    · exact h.fill hact
  | writeObuf bytes =>
    rw [hostAct] at hact
    split at hact
    · cases hact
    split at hact
    · rename_i hlen
      cases hact
      exact ⟨h.bound, h.ibuf, Memory.overlay_wf h.obuf (Nat.le_trans hlen h.bound), h.offered, h.delivered⟩
    · cases hact
  | feedBack =>
    rw [hostAct] at hact
    split at hact
    · cases hact
    · exact h.fill hact
  | present d => cases hact; exact h.drivePorts ..
  | withdraw => cases hact; exact h.drivePorts ..
  | ready level => cases hact; exact h.drivePorts ..
  | drive level => cases hact; exact h.drivePorts ..
  | handshake =>
    rw [hostAct] at hact
    split at hact
    · cases hact; exact h.accept
    · cases hact; exact h

/-- Settles O36: the step concludes the accepted command with what `Exec` says of it. -/
theorem stepRefinesExec : Obligations.StepRefinesExec := by
  intro s hr hn hv
  have hf := State.fetch_presented hn hv
  split
  · rename_i why hx
    exact step_of_transact_error hr hf hx
  · rename_i r hx
    exact ⟨s.accept.finish r, step_of_transact_ok hr hf hx,
      fun hy => ⟨State.finish_txn_of_ready hy, State.finish_delivered_of_ready hy⟩,
      fun hy => ⟨State.finish_txn_of_not_ready hy, State.finish_delivered_of_not_ready hy⟩,
      fun bytes hb => State.finish_output hb,
      fun hb => State.finish_obuf_of_none hb⟩

/-- Settles O42: a command writes `OBUF` and its result only, and `CSUM` has no output. -/
theorem commandFrame : Obligations.CommandFrame := by
  intro i s t h
  obtain ⟨r, ho, rfl⟩ := (exec_next_iff ..).1 h
  refine ⟨by simp, by simp, by simp, by simp, by simp, by simp, by simp, ?_,
    State.finish_txn_of_ready, State.finish_delivered_of_not_ready⟩
  rintro c rfl
  obtain ⟨-, rfl⟩ := (underDuty_ok_iff ..).1 ho
  exact ⟨(State.finish_obuf_of_none rfl).1, State.finish_obufByte_of_none rfl⟩

/-- Settles O44: both states have one outcome, and what a command leaves of it does not depend on the
state. -/
theorem outcomeIsIndependentOfHistory : Obligations.OutcomeIsIndependentOfHistory := by
  intro i s s' hcfg hready hwf hwf' hbytes
  have hout : outcomeOf s'.cfg i (s'.input i.operands.inLen) =
      outcomeOf s.cfg i (s.input i.operands.inLen) := by
    rw [hcfg, State.input_congr hwf hwf' hbytes]
  refine ⟨fun why => by rw [exec_refused_iff, exec_refused_iff, hout], fun t ht => ?_⟩
  obtain ⟨r, hr, rfl⟩ := (exec_next_iff ..).1 ht
  have hfit : r.Fits 65535 := (outcomeOf_fits (s.input_length _) hr).mono s.capacity_le
  refine ⟨s'.finish r, exec_of_outcome (hout.trans hr), fun hy => ?_, fun hy => ?_, fun d hd hd' a ha => ?_⟩
  · rw [State.finish_delivered_of_ready hy, State.finish_delivered_of_ready (hready ▸ hy)]
  · rw [State.finish_txn_of_not_ready hy, State.finish_txn_of_not_ready (hready ▸ hy)]
  · obtain rfl := State.finish_result hd hd'
    exact State.finish_obufByte_eq s' s hfit ha

/-- Settles O48: the command in flight concludes in the step, with the outcome `Exec` gives it. -/
theorem acceptedCommandsComplete : Obligations.AcceptedCommandsComplete := by
  intro s d hr hy hrun hok
  cases hx : transact s.cfg d (s.input (operandsOf d).inLen) with
  | error why => exact absurd hx (hok why)
  | ok r =>
    exact ⟨s.finish r, r, step_of_transact_ok hr (State.fetch_running hrun) hx,
      State.finish_txn_of_ready hy, State.finish_delivered_of_ready hy, rfl⟩

/-- Settles O49: the first command leaves the configuration and `IBUF` as they are, so that `Exec` has
the same outcome again. -/
theorem repeatedCommandRepeatsItsResult : Obligations.RepeatedCommandRepeatsItsResult := by
  intro s t d hr hn hy ht
  obtain ⟨r, hx, rfl⟩ := (issue_next_iff hr hn d t).1 ht
  have hfit : r.Fits 65535 := (transact_fits (s.input_length _) hx).mono s.capacity_le
  have hidle : ((s.issued d).finish r).txn = none := State.finish_txn_of_ready hy
  have hdel : ((s.issued d).finish r).delivered = some r.pack := State.finish_delivered_of_ready hy
  have hagain : issue d ((s.issued d).finish r) = .next ((((s.issued d).finish r).issued d).finish r) :=
    (issue_next_iff (by simpa using hr) hidle ..).2 ⟨r, by simpa using hx, rfl⟩
  have hy' : (((s.issued d).finish r).issued d).rspReady = true := by simpa using hy
  refine ⟨_, hagain, ?_, State.finish_txn_of_ready hy', fun r' hr' => ?_⟩
  · rw [State.finish_delivered_of_ready hy', hdel]
  · obtain rfl : r.pack = r' := Option.some.inj (hdel.symm.trans hr')
    exact List.map_congr_left fun a ha => State.finish_obufByte_eq _ _ hfit (List.mem_range.1 ha)

/-- Settles O51, by the slice of a canonical buffer. -/
theorem inputIsTheStartOfIbuf : Obligations.InputIsTheStartOfIbuf :=
  fun _ n h => State.input_eq_map h n

/-- Settles O52, by what a buffer reads as after a write at its start. -/
theorem filledBytesAreTheInput : Obligations.FilledBytesAreTheInput := by
  intro s bytes hwf hn hlen
  have hbyte : ∀ a, ({ s with ibuf := Memory.overlay (some ibufUnlisted) bytes s.ibuf } : State).ibufByte a
      = (bytes[a]?).getD (s.ibufByte a) := fun a => Memory.at?_overlay ibufUnlisted bytes s.ibuf a
  refine ⟨{ s with ibuf := Memory.overlay (some ibufUnlisted) bytes s.ibuf }, ?_, ?_, fun a ha => ?_⟩
  · have hbusy : s.busy = false := by simp [State.busy, hn]
    rw [hostAct, hbusy]
    exact (State.fill_next_iff ..).2 ⟨hlen, rfl⟩
  · rw [State.input_eq_map (Memory.overlay_wf hwf hlen)]
    refine List.ext_getElem (by simp) fun a _ ha => ?_
    simp [hbyte, ha]
  · simp [hbyte, ha]

/-- Settles O5: each outcome is a function of the operands its command reads. -/
theorem ignoredOperandsHaveNoEffect : Obligations.IgnoredOperandsHaveNoEffect := by
  intro cfg B c c' hlen
  refine ⟨fun hp => ?_, ?_, fun hp hs hv hd => ?_⟩
  · rw [decodeOutcome, decodeOutcome, hlen, hp]
  · rw [csumOutcome, csumOutcome, hlen]
  · rw [encodeOutcome, encodeOutcome, runEncode, runEncode,
      datagram_congr cfg B hp hs (resolvedDst_congr cfg hv hd)]

/-- Settles O35, in the two ways a command to run is found. -/
theorem stepRunsTheDecodedCommand : Obligations.StepRunsTheDecodedCommand := by
  intro s d i hr hd
  refine ⟨fun hrun => step_of_fetch hr (State.fetch_running hrun) hd, fun hn hv hc => ?_⟩
  subst hc
  exact step_of_fetch hr (State.fetch_presented hn hv) hd

/-- Settles O38: both buffers are empty and there is no result. -/
theorem resetMeetsTheInvariant : Obligations.ResetMeetsTheInvariant := by
  intro cfg
  exact ⟨Nat.le_refl _, Memory.wf_nil _ _, Memory.wf_nil _ _, by simp, by simp⟩

/-- Settles O41: an outcome is refused by its duty alone. -/
theorem refusedExactlyOnBrokenDuty : Obligations.RefusedExactlyOnBrokenDuty := by
  intro c s why
  refine ⟨(exec_refused_iff ..).trans (underDuty_error_iff ..),
    (exec_refused_iff ..).trans (underDuty_error_iff ..), fun h => ?_⟩
  cases (exec_refused_iff ..).1 h

/-- Settles O47, by the state of the transaction. -/
theorem transactionHandshake : Obligations.TransactionHandshake := by
  intro s hr
  refine ⟨by simp [State.cmdReady, State.busy, hr], fun r hoff => ?_, fun hn hv => ?_⟩
  · have hvalid : s.rspValid = true := by simp [State.rspValid, hoff, hr]
    have hstep : step s = .next (s.offer r) := by
      rw [step_of_fetch_none hr (by simp [State.fetch, hoff])]
      simp [State.deliver, hoff]
    refine ⟨hvalid, fun hy => ⟨fun any => ?_, ?_⟩, fun hy => ⟨fun any => ?_, ?_⟩⟩
    · simp [State.rspPort, State.delivering, hoff, hvalid, hy]
    · rw [hstep, State.offer_of_ready hy]
    · simp [State.rspPort, State.delivering, hoff, hy]
    · rw [hstep, State.offer_of_not_ready hy, ← hoff]
  · refine ⟨by simp [State.rspValid, hn], fun any => by simp [State.rspPort, hn], ?_⟩
    rw [step_of_fetch_none hr (by simp [State.fetch, hn, hv])]
    simp [State.deliver, hn]

/-- Settles O50: each of these actions asks first whether the block is busy. -/
theorem hostDutiesInFlight : Obligations.HostDutiesInFlight := by
  intro s x hx
  have hbusy : s.busy = true := by simp [State.busy, hx]
  exact ⟨fun _ => if_pos hbusy, fun _ => if_pos hbusy, if_pos hbusy, fun _ => if_pos hbusy⟩

/-- Settles O54, by what `State.resetWith` puts in each field. -/
theorem resetStateIsIdle : Obligations.ResetStateIsIdle :=
  fun _ => ⟨rfl, rfl, rfl, rfl⟩

end Sys2Proof.Machine
end

section
/-! SUPPORT. The statements of 20_memory.md, settled in the order of their tiers. -/

namespace Sys2Proof.Machine

/-! ### Errors (R59, R212) -/

/-- Only an error is packed with a status other than `OK` (R86). -/
theorem Result.eq_err_of_rspStatus_pack_ne {r : Result} (h : rspStatus r.pack ≠ 0#4) :
    ∃ kind, r = .err kind := by
  cases r with
  | decoded p a q => simp [Result.pack] at h
  | encoded G => simp [Result.pack] at h
  | summed c => simp [Result.pack] at h
  | err kind => exact ⟨kind, rfl⟩

/-! ### The command port while a command is in flight (R66) -/

/-- The state with other levels on the command port. -/
def State.driveCmd (s : State) (d : Descriptor) (valid : Bool) : State :=
  { s with cmd := d, cmdValid := valid }

section CommandPort
variable (s : State) (d : Descriptor) (valid : Bool)

@[simp] theorem State.driveCmd_cfg : (s.driveCmd d valid).cfg = s.cfg := rfl
@[simp] theorem State.driveCmd_rst : (s.driveCmd d valid).rst = s.rst := rfl
@[simp] theorem State.driveCmd_rspReady : (s.driveCmd d valid).rspReady = s.rspReady := rfl
@[simp] theorem State.driveCmd_txn : (s.driveCmd d valid).txn = s.txn := rfl
@[simp] theorem State.driveCmd_input (n : Nat) : (s.driveCmd d valid).input n = s.input n := rfl

theorem State.resetBlock_driveCmd :
    (s.driveCmd d valid).resetBlock = s.resetBlock.driveCmd d valid := by
  unfold State.resetBlock
  rw [State.driveCmd_txn]
  cases s.txn <;> rfl

theorem State.withOutput_driveCmd (r : Result) :
    (s.driveCmd d valid).withOutput r = (s.withOutput r).driveCmd d valid := by
  unfold State.withOutput
  cases r.output <;> rfl

theorem State.offer_driveCmd (rsp : Descriptor) :
    (s.driveCmd d valid).offer rsp = (s.offer rsp).driveCmd d valid := by
  unfold State.offer
  rw [State.driveCmd_rspReady]
  cases s.rspReady <;> rfl

theorem State.finish_driveCmd (r : Result) :
    (s.driveCmd d valid).finish r = (s.finish r).driveCmd d valid := by
  rw [State.finish, State.withOutput_driveCmd, State.offer_driveCmd, State.finish]

end CommandPort

theorem step_of_rst {s : State} (hr : s.rst = true) : step s = .next s.resetBlock := if_pos hr

/-- A step with a command in flight ends it with the outcome `Exec` gives its latched descriptor. -/
theorem step_running_next {s t : State} {d : Descriptor} (hr : s.rst = false)
    (hrun : s.txn = some (.running d)) (h : step s = .next t) :
    ∃ r, transact s.cfg d (s.input (operandsOf d).inLen) = .ok r ∧ t = s.finish r := by
  have hf := State.fetch_running hrun
  cases hx : transact s.cfg d (s.input (operandsOf d).inLen) with
  | error why => simp [step_of_transact_error hr hf hx] at h
  | ok r => exact ⟨r, rfl, by simpa [step_of_transact_ok hr hf hx, eq_comm] using h⟩

/-! ### The statements -/

/-- Settles O40: an outcome's output fits in `OBUF`, so the command ends, and a refusal is no fault. -/
theorem commandsNeverFault : Obligations.CommandsNeverFault := by
  intro i s why
  cases ho : outcomeOf s.cfg i (s.input i.operands.inLen) with
  | error why' => simp [(exec_refused_iff ..).2 ho]
  | ok r => simp [exec_of_outcome ho]

/-- Settles O43: a result with a non-zero status packs an error, which has no output. -/
theorem errorsLeaveNoTrace : Obligations.ErrorsLeaveNoTrace := by
  intro i s t d h hready hnot hstatus
  obtain ⟨r, -, rfl⟩ := (exec_next_iff ..).1 h
  obtain rfl : d = r.pack := State.finish_result hready hnot
  obtain ⟨kind, rfl⟩ := Result.eq_err_of_rspStatus_pack_ne hstatus
  have hfinish : s.finish (.err kind) = s.offer (Result.err kind).pack := by
    rw [State.finish, State.withOutput_of_none _ _ rfl]
  exact ⟨⟨kind, rfl⟩, hfinish.trans (State.offer_eq ..), State.finish_obufByte_of_none rfl⟩

/-- Settles O45: a reset, and the end of the command in flight by its latched descriptor, both leave the
command port as it stands and read nothing of it. -/
theorem acceptedCommandIsLatched : Obligations.AcceptedCommandIsLatched := by
  intro s t d d' valid hrun hstep
  change step (s.driveCmd d' valid) = .next (t.driveCmd d' valid)
  rcases Bool.eq_false_or_eq_true s.rst with hr | hr
  · obtain rfl : s.resetBlock = t := by simpa [step_of_rst hr] using hstep
    rw [step_of_rst (by simpa using hr), State.resetBlock_driveCmd]
  · obtain ⟨r, hx, rfl⟩ := step_running_next hr hrun hstep
    rw [step_of_transact_ok (by simpa using hr) (State.fetch_running (by simpa using hrun))
      (by simpa using hx), State.finish_driveCmd]

end Sys2Proof.Machine
end

section
/-!
SUPPORT. The command descriptor by its fields (30_encoding.md R80): what each field of a packed descriptor
is, what the mask of R81 keeps, and which descriptors the decoder reads as which command.
-/

namespace Sys2Proof

/-! ### The fields of a packed descriptor (R80) -/

section PackOperands
variable (op : BitVec 2) (c : Operands)

@[simp] theorem cmdOp_packOperands : cmdOp (packOperands op c) = op := by
  refine BitVec.eq_of_getLsbD_eq fun i hi => ?_
  rw [cmdOp, BitVec.getLsbD_extractLsb', getLsbD_packOperands]
  grind

@[simp] theorem cmdRaw_packOperands : cmdRaw (packOperands op c) = true := by
  rw [cmdRaw, getLsbD_packOperands]
  rfl

@[simp] theorem cmdRsv_packOperands : cmdRsv (packOperands op c) = 0#12 := by
  refine BitVec.eq_of_getLsbD_eq fun i hi => ?_
  rw [cmdRsv, BitVec.getLsbD_extractLsb', getLsbD_packOperands]
  grind

@[simp] theorem operandsOf_packOperands_dstAddrValid :
    (operandsOf (packOperands op c)).dstAddrValid = c.dstAddrValid := by
  rw [operandsOf, getLsbD_packOperands]
  simp

/-- The field takes the low 16 bits of `in_len`. -/
@[simp] theorem operandsOf_packOperands_inLen :
    (operandsOf (packOperands op c)).inLen = c.inLen % 65536 := by
  have hfield : (packOperands op c).extractLsb' 16 16 = BitVec.ofNat 16 c.inLen := by
    refine BitVec.eq_of_getLsbD_eq fun i hi => ?_
    rw [BitVec.getLsbD_extractLsb', getLsbD_packOperands]
    grind
  rw [operandsOf, hfield, BitVec.toNat_ofNat]

@[simp] theorem operandsOf_packOperands_port : (operandsOf (packOperands op c)).port = c.port := by
  refine BitVec.eq_of_getLsbD_eq fun i hi => ?_
  rw [operandsOf, BitVec.getLsbD_extractLsb', getLsbD_packOperands]
  grind

@[simp] theorem operandsOf_packOperands_srcPort :
    (operandsOf (packOperands op c)).srcPort = c.srcPort := by
  refine BitVec.eq_of_getLsbD_eq fun i hi => ?_
  rw [operandsOf, BitVec.getLsbD_extractLsb', getLsbD_packOperands]
  grind

@[simp] theorem operandsOf_packOperands_dstAddr :
    (operandsOf (packOperands op c)).dstAddr = c.dstAddr := by
  refine BitVec.eq_of_getLsbD_eq fun i hi => ?_
  rw [operandsOf, BitVec.getLsbD_extractLsb', getLsbD_packOperands]
  grind

end PackOperands

theorem Instr.wellFormed_iff (i : Instr) : i.wellFormed = true ↔ i.operands.inLen ≤ 65535 :=
  decide_eq_true_iff

/-- Operands whose `in_len` fits its field are read back as they were packed (R80, R82). -/
theorem operandsOf_packOperands (op : BitVec 2) {c : Operands} (h : c.inLen ≤ 65535) :
    operandsOf (packOperands op c) = c := by
  have hmod : c.inLen % 65536 = c.inLen := Nat.mod_eq_of_lt (by omega)
  calc operandsOf (packOperands op c)
      = ⟨c.dstAddrValid, c.inLen % 65536, c.port, c.srcPort, c.dstAddr⟩ := by
        rw [← operandsOf_packOperands_dstAddrValid op c, ← operandsOf_packOperands_inLen op c,
          ← operandsOf_packOperands_port op c, ← operandsOf_packOperands_srcPort op c,
          ← operandsOf_packOperands_dstAddr op c]
    _ = c := by rw [hmod]

theorem operandsOf_inLen_le (d : Descriptor) : (operandsOf d).inLen ≤ 65535 :=
  Nat.le_of_lt_succ (d.extractLsb' 16 16).isLt

/-- A descriptor with `raw = 1` and `rsv = 0` is the packing of its own fields: no bit of it is dropped
(decision D3). -/
theorem packOperands_operandsOf {d : Descriptor} (hraw : cmdRaw d = true) (hrsv : cmdRsv d = 0#12) :
    packOperands (cmdOp d) (operandsOf d) = d := by
  have hzero : ∀ i, 4 ≤ i → i < 16 → d.getLsbD i = false := by
    intro i h4 h16
    have hbit : (cmdRsv d).getLsbD (i - 4) = d.getLsbD i := by
      rw [cmdRsv, BitVec.getLsbD_extractLsb']
      grind
    rw [← hbit, hrsv, BitVec.getLsbD_zero]
  refine BitVec.eq_of_getLsbD_eq fun i hi => ?_
  rw [getLsbD_packOperands]
  rw [cmdRaw] at hraw
  simp only [cmdOp, operandsOf, BitVec.ofNat_toNat, BitVec.setWidth_eq, BitVec.getLsbD_extractLsb',
    BitVec.getLsbD_zero]
  rcases Nat.lt_or_ge i 4 with h4 | h4
  · interval_cases i <;> simp [hraw]
  · grind

/-! ### What the mask selects (R81) -/

theorem cmdOp_eq_extract_select (d : Descriptor) :
    cmdOp d = (word0 d &&& selectMask).extractLsb' 0 2 := by
  refine BitVec.eq_of_getLsbD_eq fun i hi => ?_
  simp only [cmdOp, word0, selectMask, BitVec.getLsbD_and, BitVec.getLsbD_extractLsb']
  interval_cases i <;> simp

theorem cmdRaw_eq_getLsbD_select (d : Descriptor) :
    cmdRaw d = (word0 d &&& selectMask).getLsbD 2 := by
  simp [cmdRaw, word0, selectMask]

theorem cmdRsv_eq_extract_select (d : Descriptor) :
    cmdRsv d = (word0 d &&& selectMask).extractLsb' 4 12 := by
  refine BitVec.eq_of_getLsbD_eq fun i hi => ?_
  simp only [cmdRsv, word0, selectMask, BitVec.getLsbD_and, BitVec.getLsbD_extractLsb']
  interval_cases i <;> simp

theorem Laws.Selection.all (i : Instr) : Laws.Selection.Statement i := by
  cases i with
  | decode c => exact Laws.Selection.decode c
  | encode c => exact Laws.Selection.encode c
  | csum c => exact Laws.Selection.csum c

/-- The row of a command is selected exactly by its `op`, with `raw = 1` and `rsv = 0`. -/
theorem select_eq_rowMatch_iff (d : Descriptor) (i : Instr) :
    word0 d &&& selectMask = Laws.Selection.rowMatch i ↔
      cmdOp d = opOf i ∧ cmdRaw d = true ∧ cmdRsv d = 0#12 := by
  constructor
  · intro h
    rw [cmdOp_eq_extract_select, cmdRaw_eq_getLsbD_select, cmdRsv_eq_extract_select, h]
    cases i <;> simp [Laws.Selection.rowMatch, opOf]
  · rintro ⟨hop, hraw, hrsv⟩
    rw [← packOperands_operandsOf hraw hrsv, hop]
    cases i with
    | decode c => exact Laws.Selection.decode (operandsOf d)
    | encode c => exact Laws.Selection.encode (operandsOf d)
    | csum c => exact Laws.Selection.csum (operandsOf d)

/-! ### The decoder (R81, R85) -/

/-- The decoder reads a command exactly where its row is selected, with the operands of the descriptor. -/
theorem decodeDescriptor_ok_iff (d : Descriptor) (i : Instr) :
    decodeDescriptor d = .ok i ↔
      word0 d &&& selectMask = Laws.Selection.rowMatch i ∧ i.operands = operandsOf d := by
  constructor
  · intro h
    refine ⟨?_, Machine.decodeDescriptor_operands h⟩
    unfold decodeDescriptor at h
    split at h
    · cases h; assumption
    split at h
    · cases h; assumption
    split at h
    · cases h; assumption
    · cases h
  · rintro ⟨hrow, hops⟩
    cases i with
    | decode c => cases hops; exact if_pos hrow
    | encode c => cases hops; rw [decodeDescriptor, hrow]; rfl
    | csum c => cases hops; rw [decodeDescriptor, hrow]; rfl

/-- The descriptors that are read as a command of one kind are those its row selects. -/
theorem exists_decodeDescriptor_ok_iff_row {mk : Operands → Instr} (hmk : ∀ c, (mk c).operands = c)
    {row : Addr} (hrow : ∀ c, Laws.Selection.rowMatch (mk c) = row) (d : Descriptor) :
    (∃ c, decodeDescriptor d = .ok (mk c)) ↔ word0 d &&& selectMask = row := by
  simp [decodeDescriptor_ok_iff, hmk, hrow]

/-- Every `op` but 11 is that of one of the three commands. -/
theorem exists_instr_of_op_ne {op : BitVec 2} (h : op ≠ 3#2) (c : Operands) :
    ∃ i, opOf i = op ∧ i.operands = c := by
  have hcases : op = 0#2 ∨ op = 1#2 ∨ op = 2#2 := by
    revert op
    decide
  rcases hcases with rfl | rfl | rfl
  · exact ⟨.decode c, rfl, rfl⟩
  · exact ⟨.encode c, rfl, rfl⟩
  · exact ⟨.csum c, rfl, rfl⟩

theorem opOf_ne (i : Instr) : opOf i ≠ 3#2 := by
  cases i <;> simp [opOf]

/-- The decoder reads a command exactly from the descriptors that are not reserved (R85). -/
theorem exists_decodeDescriptor_ok_iff (d : Descriptor) :
    (∃ i, decodeDescriptor d = .ok i) ↔ ¬ (cmdOp d = 3#2 ∨ cmdRaw d = false ∨ cmdRsv d ≠ 0#12) := by
  simp only [decodeDescriptor_ok_iff, select_eq_rowMatch_iff, not_or, Bool.not_eq_false, not_not]
  constructor
  · rintro ⟨i, ⟨hop, hraw, hrsv⟩, -⟩
    exact ⟨hop ▸ opOf_ne i, hraw, hrsv⟩
  · rintro ⟨hop, hraw, hrsv⟩
    obtain ⟨i, hi, hops⟩ := exists_instr_of_op_ne hop (operandsOf d)
    exact ⟨i, ⟨hi.symm, hraw, hrsv⟩, hops⟩

/-! ### Descriptors given by their words (R80) -/

@[simp] theorem word0_ofWords (w0 w1 w2 : Addr) : word0 (ofWords w0 w1 w2) = w0 := by
  refine BitVec.eq_of_getLsbD_eq fun i hi => ?_
  rw [word0, BitVec.getLsbD_extractLsb', getLsbD_ofWords]
  grind

/-- `in_len` is the upper half of `W0`. -/
theorem operandsOf_inLen_eq (d : Descriptor) : (operandsOf d).inLen = ((word0 d).extractLsb' 16 16).toNat := by
  have hfield : d.extractLsb' 16 16 = (word0 d).extractLsb' 16 16 := by
    refine BitVec.eq_of_getLsbD_eq fun i hi => ?_
    simp only [word0, BitVec.getLsbD_extractLsb']
    grind
  rw [operandsOf, hfield]

end Sys2Proof
end

section
/-! SUPPORT. The statements of 30_encoding.md, settled in the order of their tiers. -/

namespace Sys2Proof.Machine

/-- Settles O1: the encoded word selects the command's own row, and its operands fit their fields. -/
theorem commandDecodesBack : Obligations.CommandDecodesBack := by
  intro i hwf
  have hlen : i.operands.inLen ≤ 65535 := (Instr.wellFormed_iff i).1 hwf
  exact (decodeDescriptor_ok_iff ..).2 ⟨Laws.Selection.all i, (operandsOf_packOperands _ hlen).symm⟩

/-- Settles O2: an accepted descriptor has the command's `op`, `raw = 1` and `rsv = 0`, so that it is the
packing of its fields. -/
theorem descriptorEncodesBack : Obligations.DescriptorEncodesBack := by
  intro d i h
  obtain ⟨hrow, hops⟩ := (decodeDescriptor_ok_iff ..).1 h
  obtain ⟨hop, hraw, hrsv⟩ := (select_eq_rowMatch_iff ..).1 hrow
  refine ⟨(Instr.wellFormed_iff i).2 (hops ▸ operandsOf_inLen_le d), ?_⟩
  rw [encodeDescriptor, ← hop, hops, packOperands_operandsOf hraw hrsv]

/-- Settles O4: the decoder rejects exactly the reserved descriptors, and a step refuses what it rejects. -/
theorem reservedDescriptorsAreRefused : Obligations.ReservedDescriptorsAreRefused := by
  intro s hr hn hv
  refine ⟨fun hres => ?_, (exists_decodeDescriptor_ok_iff s.cmd).2⟩
  cases hd : decodeDescriptor s.cmd with
  | ok i => exact absurd hres ((exists_decodeDescriptor_ok_iff s.cmd).1 ⟨i, hd⟩)
  | error why =>
    exact ⟨why, step_of_transact_error hr (State.fetch_presented hn hv) (transact_of_reserved hd _ _)⟩

/-- Settles O7: the packing of an outcome that fits is a legal result, and each field is read back. -/
theorem resultDescriptorFields : Obligations.ResultDescriptorFields := by
  intro r hfit
  obtain ⟨hstatus, hzero, -⟩ := legalRsp_pack hfit
  refine ⟨hzero, hstatus, rspOutLen_pack hfit, ?_⟩
  cases r with
  | decoded p a q => simp [Result.pack]
  | encoded G => simp [Result.pack]
  | summed c => simp [Result.pack]
  | err k => simp [Result.pack]

/-- Settles O3, one row of the table for each kind of command. -/
theorem maskSelectsTheCommand : Obligations.MaskSelectsTheCommand := by
  intro d
  exact ⟨exists_decodeDescriptor_ok_iff_row (mk := .decode) (fun _ => rfl) (fun _ => rfl) d,
    exists_decodeDescriptor_ok_iff_row (mk := .encode) (fun _ => rfl) (fun _ => rfl) d,
    exists_decodeDescriptor_ok_iff_row (mk := .csum) (fun _ => rfl) (fun _ => rfl) d⟩

/-- Settles O6: `DECODE` and `ENCODE` are read by evaluation, and an accepted descriptor encodes back; `CSUM`
is selected by `W0` alone; the packing takes only the length of an output. -/
theorem workedDescriptors : Obligations.WorkedDescriptors := by
  have hdecode : decodeDescriptor (ofWords 0x00200004#32 0x00002328#32 0x00000000#32)
      = .ok (.decode ⟨false, 32, 9000#16, 0#16, 0#32⟩) := by decide
  have hencode : decodeDescriptor (ofWords 0x0004000D#32 0x13882328#32 0x0A000001#32)
      = .ok (.encode ⟨true, 4, 9000#16, 5000#16, 0x0A000001#32⟩) := by decide
  refine ⟨hdecode, (descriptorEncodesBack _ _ hdecode).2, hencode, (descriptorEncodesBack _ _ hencode).2,
    fun w1 w2 => ⟨operandsOf (ofWords 0x00140006#32 w1 w2), ?_, ?_⟩, fun payload hlen => ?_,
    fun G hlen => ?_, by decide⟩
  · exact (decodeDescriptor_ok_iff ..).2 ⟨by rw [word0_ofWords]; rfl, rfl⟩
  · rw [operandsOf_inLen_eq, word0_ofWords]
    rfl
  · rw [Result.pack, hlen]
    decide
  · rw [Result.pack, hlen]
    decide

/-- Settles O56: a command line is run as the encoding of its command, where that is well-formed. -/
theorem commandLinesIssueTheirDescriptor : Obligations.CommandLinesIssueTheirDescriptor := by
  intro l i s hl
  rw [Line.run_command hl]
  refine ⟨fun hlen => ?_, fun hlen => if_neg ?_⟩
  · rw [encodeDescriptor, operandsOf_packOperands _ hlen]
    exact ⟨if_pos ((Instr.wellFormed_iff i).2 hlen), cmdRaw_packOperands .., cmdRsv_packOperands .., rfl⟩
  · rw [Instr.wellFormed_iff]
    omega

end Sys2Proof.Machine
end

section
/-!
SUPPORT. The checksum generator in arithmetic: `Fold` by its closed form, the word sum of a byte sequence and
of its parts, and a two-byte field inside a summed stream (40_checksum.md R121 to R132).
-/

namespace Sys2Proof.Machine

/-! ### `Fold` (R122) -/

theorem foldRounds_of_pos :
    ∀ {k t : Nat}, t ≤ k → 0 < t → foldRounds k t = (t - 1) % 65535 + 1
  | 0, t, hk, ht => by omega
  | k + 1, t, hk, ht => by
    unfold foldRounds
    split
    · omega
    · rw [foldRounds_of_pos (by omega) (by omega)]
      omega

@[simp] theorem fold_zero : fold 0 = 0 := rfl

theorem fold_of_pos {t : Nat} (h : 0 < t) : fold t = (t - 1) % 65535 + 1 :=
  foldRounds_of_pos (Nat.le_refl t) h

theorem fold_le (t : Nat) : fold t ≤ 0xFFFF := by
  rcases Nat.eq_zero_or_pos t with rfl | h
  · decide
  · rw [fold_of_pos h]
    omega

theorem fold_mod (t : Nat) : fold t % 65535 = t % 65535 := by
  rcases Nat.eq_zero_or_pos t with rfl | h
  · rfl
  · rw [fold_of_pos h]
    omega

theorem fold_eq_zero_iff (t : Nat) : fold t = 0 ↔ t = 0 := by
  rcases Nat.eq_zero_or_pos t with rfl | h
  · simp
  · rw [fold_of_pos h]
    omega

/-- A folded value is told by its remainder modulo 65535 and by whether it is 0 (R122, R128). -/
theorem fold_congr {s t : Nat} (hmod : s % 65535 = t % 65535) (hzero : s = 0 ↔ t = 0) :
    fold s = fold t := by
  have hs := fold_mod s
  have ht := fold_mod t
  have hs0 := fold_eq_zero_iff s
  have ht0 := fold_eq_zero_iff t
  have hsle := fold_le s
  have htle := fold_le t
  omega

/-- Carries may be folded before an addition (R123). -/
theorem fold_fold_add_fold (a b : Nat) : fold (fold a + fold b) = fold (a + b) := by
  have ha := fold_mod a
  have hb := fold_mod b
  have ha0 := fold_eq_zero_iff a
  have hb0 := fold_eq_zero_iff b
  exact fold_congr (by omega) (by omega)

theorem fold_fold_add (a b : Nat) : fold (fold a + b) = fold (a + b) := by
  have ha := fold_mod a
  have ha0 := fold_eq_zero_iff a
  exact fold_congr (by omega) (by omega)

theorem fold_eq_ones_iff (t : Nat) : fold t = 0xFFFF ↔ 0 < t ∧ t % 65535 = 0 := by
  have hmod := fold_mod t
  have hzero := fold_eq_zero_iff t
  have hle := fold_le t
  omega

/-- Folding after every addition is folding once at the end (R123). -/
theorem foldl_fold_add :
    ∀ (ws : List Half) {acc : Nat}, acc ≤ 0xFFFF →
      ws.foldl (fun acc w => fold (acc + w.toNat)) acc = fold (acc + (ws.map BitVec.toNat).sum)
  | [], acc, h => by simp [fold_of_le h]
  | w :: ws, acc, _ => by
    rw [List.foldl_cons, foldl_fold_add ws (fold_le _), fold_fold_add, Nat.add_assoc,
      List.map_cons, List.sum_cons]

/-! ### The words of a byte sequence and their sum (R121, R123) -/

@[simp] theorem num8_cons_zero (b : Byte) (X : Bytes) : num8 (b :: X) 0 = b.toNat := rfl
@[simp] theorem num8_cons_succ (b : Byte) (X : Bytes) (i : Nat) : num8 (b :: X) (i + 1) = num8 X i := rfl
theorem num8_of_length_le {X : Bytes} {i : Nat} (h : X.length ≤ i) : num8 X i = 0 := by
  simp [num8, h]

theorem words_length : ∀ X : Bytes, (words X).length = (X.length + 1) / 2
  | [] => rfl
  | [_] => by simp
  | a :: b :: X => by
    rw [words_cons_cons, List.length_cons, words_length X, List.length_cons, List.length_cons]
    omega

/-- Word `k` pairs bytes `2k` and `2k + 1`; past the end of an odd sequence `num8` is 0, as the padding of
R121. -/
theorem words_toNat_getElem? :
    ∀ {X : Bytes} {k : Nat}, 2 * k < X.length →
      ((words X).map BitVec.toNat)[k]? = some (num8 X (2 * k) * 256 + num8 X (2 * k + 1))
  | [b], 0, _ => congrArg some (toNat_append_byte b 0#8)
  | a :: b :: X, 0, _ => congrArg some (toNat_append_byte a b)
  | a :: b :: X, k + 1, h => by
    have ih := words_toNat_getElem? (X := X) (k := k) (by simp only [List.length_cons] at h; omega)
    have hbyte : 2 * (k + 1) = 2 * k + 1 + 1 := by omega
    simp only [words_cons_cons, List.map_cons, List.getElem?_cons_succ, hbyte, num8_cons_succ, ih]

theorem wordSum_append :
    ∀ {X : Bytes} (Y : Bytes), X.length % 2 = 0 → wordSum (X ++ Y) = wordSum X + wordSum Y
  | [], Y, _ => by simp
  | a :: b :: X, Y, h => by
    have ih := wordSum_append (X := X) Y (by simpa [Nat.add_assoc] using h)
    simp only [List.cons_append, wordSum_cons_cons, ih, Nat.add_assoc]

theorem wordSum_eq_zero_iff : ∀ X : Bytes, wordSum X = 0 ↔ ∀ b ∈ X, b = 0#8
  | [] => by simp
  | [b] => by
    rw [wordSum_singleton, List.forall_mem_singleton, BitVec.toNat_eq, BitVec.toNat_ofNat]
    omega
  | a :: b :: X => by
    rw [List.forall_mem_cons, List.forall_mem_cons, ← wordSum_eq_zero_iff X, wordSum_cons_cons,
      BitVec.toNat_eq, BitVec.toNat_eq, BitVec.toNat_ofNat]
    omega

/-- The word sum weighs a byte of an even offset by 256 (R121). -/
theorem wordSum_eq_sum_range : ∀ X : Bytes,
    wordSum X = ((List.range X.length).map (fun i => num8 X i * (if i % 2 = 0 then 256 else 1))).sum
  | [] => rfl
  | [b] => by simp
  | a :: b :: X => by
    have hrange : List.range (X.length + 2) = 0 :: 1 :: (List.range X.length).map (· + 2) := by
      rw [Nat.add_comm, List.range_add]
      simp [List.range_succ, Nat.add_comm 2]
    have hlater (i : Nat) : num8 (a :: b :: X) (i + 2) = num8 X i := rfl
    have hfirst : num8 (a :: b :: X) 1 = b.toNat := rfl
    rw [wordSum_cons_cons, wordSum_eq_sum_range X, List.length_cons, List.length_cons, hrange]
    simp [Function.comp_def, hlater, hfirst, Nat.add_assoc]

@[simp] theorem wordSum_enc16 (v : Half) : wordSum (enc16 v) = v.toNat := by
  rw [enc16, wordSum_cons_cons, wordSum_nil, BitVec.extractLsb'_toNat, BitVec.extractLsb'_toNat]
  omega

/-! ### `Sum1c`, `Csum`, `UdpStore` and `Verify` (R123 to R128) -/

theorem sum1c_le (X : Bytes) : sum1c X ≤ 0xFFFF := fold_le _

theorem sum1c_eq_zero_iff (X : Bytes) : sum1c X = 0 ↔ ∀ b ∈ X, b = 0#8 :=
  (fold_eq_zero_iff _).trans (wordSum_eq_zero_iff X)

/-- R131, at an even offset. -/
theorem sum1c_append {X : Bytes} (Y : Bytes) (h : X.length % 2 = 0) :
    sum1c (X ++ Y) = fold (sum1c X + sum1c Y) := by
  rw [sum1c, wordSum_append Y h, ← fold_fold_add_fold, ← sum1c, ← sum1c]

theorem csum_toNat (X : Bytes) : (csum X).toNat = 0xFFFF - sum1c X := by
  rw [csum, BitVec.toNat_ofNat]
  omega

theorem csum_eq_iff (X : Bytes) (c : Half) : csum X = c ↔ sum1c X + c.toNat = 0xFFFF := by
  have hle := sum1c_le X
  rw [BitVec.toNat_eq, csum_toNat]
  omega

theorem csum_eq_ones_iff (X : Bytes) : csum X = 0xFFFF#16 ↔ ∀ b ∈ X, b = 0#8 := by
  rw [← sum1c_eq_zero_iff, csum_eq_iff]
  simp

theorem csum_eq_zero_iff (X : Bytes) : csum X = 0x0000#16 ↔ sum1c X = 0xFFFF := by
  rw [csum_eq_iff]
  simp

theorem verify_iff (X : Bytes) : verify X = true ↔ sum1c X = 0xFFFF := decide_eq_true_iff

theorem udpStore_toNat (c : Half) : (udpStore c).toNat = if c.toNat = 0 then 0xFFFF else c.toNat := by
  unfold udpStore
  simp only [BitVec.toNat_eq, BitVec.toNat_ofNat, Nat.zero_mod]
  split <;> rfl

/-! ### A two-byte field at an even offset (R129, R132) -/

section Field
variable {A : Bytes} (hA : A.length % 2 = 0) (Z : Bytes)
include hA

/-- A field adds its value to the sum over the stream in which it is zeroed. -/
theorem sum1c_field (c : Half) :
    sum1c (A ++ enc16 c ++ Z) = fold (sum1c (A ++ [0#8, 0#8] ++ Z) + c.toNat) := by
  have hfield (v : Half) : wordSum (A ++ enc16 v ++ Z) = wordSum A + v.toNat + wordSum Z := by
    rw [wordSum_append Z (by simpa using hA), wordSum_append _ hA, wordSum_enc16]
  have hzero : sum1c (A ++ [0#8, 0#8] ++ Z) = fold (wordSum A + wordSum Z) :=
    congrArg fold (hfield 0#16)
  rw [hzero, fold_fold_add, sum1c, hfield, Nat.add_right_comm]

/-- Which values of a field verify, by the sum over the stream in which it is zeroed. -/
theorem verify_field_iff (c : Half) :
    verify (A ++ enc16 c ++ Z) = true ↔
      0 < sum1c (A ++ [0#8, 0#8] ++ Z) + c.toNat ∧
        (sum1c (A ++ [0#8, 0#8] ++ Z) + c.toNat) % 65535 = 0 := by
  rw [verify_iff, sum1c_field hA, fold_eq_ones_iff]

theorem verify_field_csum : verify (A ++ enc16 (csum (A ++ [0#8, 0#8] ++ Z)) ++ Z) = true := by
  have hle := sum1c_le (A ++ [0#8, 0#8] ++ Z)
  rw [verify_field_iff hA, csum_toNat, Nat.add_sub_cancel' hle]
  decide

/-- A non-zero field verifies exactly where it is the stored checksum of the zeroed stream (R132). -/
theorem verify_field_iff_eq_udpStore {f : Half} (hf : f ≠ 0x0000#16) :
    verify (A ++ enc16 f ++ Z) = true ↔ f = udpStore (csum (A ++ [0#8, 0#8] ++ Z)) := by
  have hle := sum1c_le (A ++ [0#8, 0#8] ++ Z)
  have hpos : f.toNat ≠ 0 := fun h => hf (BitVec.eq_of_toNat_eq h)
  rw [verify_field_iff hA, BitVec.toNat_eq, udpStore_toNat, csum_toNat]
  split <;> omega

end Field

end Sys2Proof.Machine
end

section
/-! SUPPORT. The statements of 40_checksum.md, settled in the order of their tiers. -/

namespace Sys2Proof.Machine

/-- Settles O9: word `k` pairs bytes `2k` and `2k + 1`; the last word of an odd sequence pairs its last byte
with the padding. -/
theorem wordsPairBytesHighThenLow : Obligations.WordsPairBytesHighThenLow := by
  intro X
  refine ⟨words_length X, fun k hk => words_toNat_getElem? (by omega), fun hodd => ?_⟩
  have hlast : 2 * (X.length / 2) = X.length - 1 := by omega
  have hpad : num8 X (X.length - 1 + 1) = 0 := num8_of_length_le (by omega)
  rw [words_toNat_getElem? (by omega), hlast, hpad, Nat.add_zero]

/-- Settles O10: the closed form gives the recursion and the range. -/
theorem foldRecursionAndClosedForm : Obligations.FoldRecursionAndClosedForm := by
  intro t
  refine ⟨?_, fun _ => by omega, fold_le t, (fold_eq_zero_iff t).2, fold_of_pos⟩
  split
  case isTrue h => exact fold_of_le h
  case isFalse h => exact fold_congr (by omega) (by omega)

/-- Settles O11: a folded value keeps its remainder modulo 65535 and whether it is 0. -/
theorem foldingScheduleDoesNotMatter : Obligations.FoldingScheduleDoesNotMatter := by
  refine ⟨fun _ => rfl, rfl, fun a b => (fold_fold_add_fold a b).symm, fun X => ?_⟩
  rw [foldl_fold_add _ (Nat.zero_le _), Nat.zero_add, sum1c, wordSum]

/-- Settles O12: `Sum1c` is a 16-bit value, so its complement on 16 bits is the difference from `0xFFFF`. -/
theorem checksumComplementsTheSum : Obligations.ChecksumComplementsTheSum := by
  intro X
  have hle := sum1c_le X
  refine ⟨hle, csum_toNat X, (csum_eq_iff ..).2 ?_⟩
  rw [BitVec.toNat_not, BitVec.toNat_ofNat]
  omega

/-- Settles O14: only zero bytes sum to 0; the protocol byte of a pseudo-header and a non-zero first byte are
not 0. -/
theorem zeroAndAllOnesSums : Obligations.ZeroAndAllOnesSums := by
  refine ⟨sum1c_eq_zero_iff, csum_eq_ones_iff, fun X => ?_, fun src dst n Y h => ?_, fun b Y hb h => ?_⟩
  · rw [csum_eq_zero_iff, sum1c, fold_eq_ones_iff, ← wordSum_eq_zero_iff, Nat.pos_iff_ne_zero, wordSum]
  · have hmem : udpProtocol ∈ pseudo src dst n ++ Y := by simp [pseudo]
    exact absurd ((csum_eq_ones_iff _).1 h _ hmem) (by decide)
  · exact hb ((csum_eq_ones_iff _).1 h b List.mem_cons_self)

/-- Settles O15: a field verifies exactly where its value and the sum over the zeroed stream add up to a
positive multiple of 65535. -/
theorem generateThenVerify : Obligations.GenerateThenVerify := by
  intro A Z hA X0 X
  have hiff (c : Half) :
      verify (X c) = true ↔ 0 < sum1c X0 + c.toNat ∧ (sum1c X0 + c.toNat) % 65535 = 0 :=
    verify_field_iff hA Z c
  refine ⟨verify_field_csum hA Z, ?_, fun h0 h1 c => ?_, fun h c => ?_, fun h c => ?_⟩
  · exact (verify_field_iff_eq_udpStore hA Z (udpStore_ne_zero _)).2 rfl
  · rw [hiff, BitVec.toNat_eq, BitVec.toNat_ofNat]
    omega
  · simp only [hiff, h, BitVec.toNat_eq, BitVec.toNat_ofNat]
    omega
  · simp only [hiff, h, BitVec.toNat_eq, BitVec.toNat_ofNat]
    omega

/-- Settles O16: word sums add at an even offset; `01` and `01` pair to `0101`, while each alone is `0100`. -/
theorem sumSplitsAtEvenOffsets : Obligations.SumSplitsAtEvenOffsets := by
  refine ⟨fun X Y h => sum1c_append Y h, ⟨[0x01#8], [0x01#8], by decide⟩, fun src dst n U Y hU => ?_⟩
  rw [sum1c_append Y (by simp [hU]), sum1c_append U (by simp), fold_fold_add]

/-- Settles O17: the checksum field of the UDP header lies at offset 18 of the stream. -/
theorem udpCheckSpellingsAgree : Obligations.UdpCheckSpellingsAgree := by
  intro src dst n sport dport len f D hf ports
  have hA : (pseudo src dst n ++ ports).length % 2 = 0 := by simp [ports]
  simpa only [List.append_assoc] using (verify_field_iff_eq_udpStore hA D hf).symm

/-- Settles O18: the outcome of `CSUM` under the duty is the checksum of its input, and it has no output. -/
theorem csumCompletes : Obligations.CsumCompletes := by
  intro c s hduty B
  have hexec : exec (.csum c) s = .next (s.finish (.summed (csum B))) :=
    exec_of_outcome ((underDuty_ok_iff ..).2 ⟨hduty, rfl⟩)
  have hsum := wordSum_eq_sum_range B
  rw [State.input_length] at hsum
  rw [hexec, State.finish, State.withOutput_of_none _ _ rfl, Result.pack, csum, sum1c, hsum]

/-- Settles O19: zero bytes sum to 0, one byte to its word, and a stored checksum verifies. -/
theorem csumCornerCases : Obligations.CsumCornerCases := by
  refine ⟨rfl, fun n => (csum_eq_ones_iff _).2 fun b hb => List.eq_of_mem_replicate hb, by decide,
    fun b => ?_, fun A Z hA => ?_⟩
  · rw [csum_toNat, sum1c, wordSum_singleton, fold_of_le (by omega), Nat.mul_comm]
  · exact (csum_eq_zero_iff _).2 ((verify_iff _).1 (verify_field_csum hA Z))

/-- Settles O13: a generated checksum is 0 exactly where the folded sum is `0xFFFF`. -/
theorem verifyIsAllOnesBeforeComplement : Obligations.VerifyIsAllOnesBeforeComplement :=
  fun X => ⟨verify_iff X, (verify_iff X).trans (csum_eq_zero_iff X).symm⟩

end Sys2Proof.Machine
end

section
/-!
SUPPORT. `DECODE` in the arithmetic of its ten checks: every field the parsers read is a number of `Safety`,
and the first check that fails, or none, gives the outcome (41_ipv4_parse.md R140 to R146, 42_udp_parse.md
R160 to R168, 60_exceptions.md R205).
-/

namespace Sys2Proof.Machine
open Tests (passes_iff passes_zero)

/-! ### The fields a parser reads, as numbers (R12, R90, R91) -/

theorem num8_of_lt {B : Bytes} {i : Nat} (h : i < B.length) : num8 B i = B[i].toNat := by
  simp [num8, h]

/-- The value of a field whose last byte is `b`; `toNat_append_byte` at every width. -/
theorem toNat_append_low {n : Nat} (a : BitVec n) (b : Byte) : (a ++ b).toNat = a.toNat * 256 + b.toNat := by
  rw [BitVec.toNat_append, Nat.shiftLeft_eq, Nat.mul_comm, ← Nat.two_pow_add_eq_or_of_lt b.isLt]

theorem be16_toNat {B : Bytes} {i : Nat} (h : i + 1 < B.length) : (be16 B i h).toNat = num16 B i := by
  rw [be16, toNat_append_byte, num16, num8_of_lt, num8_of_lt]

theorem be16_eq_ofNat {B : Bytes} {i : Nat} (h : i + 1 < B.length) :
    be16 B i h = BitVec.ofNat 16 (num16 B i) := by
  rw [← be16_toNat h, BitVec.ofNat_toNat, BitVec.setWidth_eq]

theorem be32_toNat {B : Bytes} {i : Nat} (h : i + 3 < B.length) : (be32 B i h).toNat = num32 B i := by
  simp only [be32, toNat_append_low, num32]
  rw [num8_of_lt (by omega), num8_of_lt (by omega), num8_of_lt (by omega), num8_of_lt h]
  omega

theorem be32_eq_ofNat {B : Bytes} {i : Nat} (h : i + 3 < B.length) :
    be32 B i h = BitVec.ofNat 32 (num32 B i) := by
  rw [← be32_toNat h, BitVec.ofNat_toNat, BitVec.setWidth_eq]

theorem hiNibble_eq {B : Bytes} (h : 0 < B.length) : hiNibble B[0] = num8 B 0 / 16 := by
  rw [hiNibble, BitVec.extractLsb'_toNat, num8_of_lt h, Nat.shiftRight_eq_div_pow]
  omega

theorem headerLength_eq {B : Bytes} (h : 0 < B.length) : headerLength B[0] = hlenOf B := by
  rw [headerLength, loNibble, BitVec.extractLsb'_toNat, hlenOf, num8_of_lt h, Nat.shiftRight_zero]

/-! ### The stream of step 10 (R164) -/

theorem enc16_be16 {B : Bytes} {i : Nat} (h : i + 1 < B.length) : enc16 (be16 B i h) = (B.drop i).take 2 := by
  rw [List.drop_eq_getElem_cons, List.drop_eq_getElem_cons h, enc16, be16,
    BitVec.extractLsb'_append_eq_left, BitVec.extractLsb'_append_eq_right]
  rfl

theorem enc32_append (a b c d : Byte) : enc32 (a ++ b ++ c ++ d) = [a, b, c, d] := by
  simp only [enc32, List.cons.injEq, ← BitVec.toNat_inj, BitVec.extractLsb'_toNat, toNat_append_low,
    Nat.shiftRight_eq_div_pow, and_true]
  omega

theorem enc32_be32 {B : Bytes} {i : Nat} (h : i + 3 < B.length) : enc32 (be32 B i h) = (B.drop i).take 4 := by
  rw [List.drop_eq_getElem_cons (by omega), List.drop_eq_getElem_cons (by omega),
    List.drop_eq_getElem_cons (by omega), List.drop_eq_getElem_cons h, be32, enc32_append]
  rfl

theorem udpStream_eq {B : Bytes} (h12 : 20 ≤ B.length) (hl : hlenOf B + 8 ≤ B.length) :
    udpStream B ⟨hlenOf B, be32 B 12, be32 B 16⟩ (be16 B (hlenOf B + 4)) = checkedStream B := by
  have haddr : (B.drop 12).take 8 = (B.drop 12).take 4 ++ (B.drop 16).take 4 := by
    rw [show 8 = 4 + 4 from rfl, List.take_add, List.drop_drop]
  simp only [udpStream, pseudo, checkedStream, enc32_be32, enc16_be16, haddr, udpProtocol, List.append_assoc]

/-! ### The first check that fails (R205) -/

/-- Check `n` is the first of the ten that fails. -/
structure FailsFirst (port : Half) (B : Bytes) (n : Nat) : Prop where
  pos : 1 ≤ n
  le : n ≤ 10
  before : passes port B (n - 1)
  fails : ¬ check port B n

theorem FailsFirst.not_passes {port : Half} {B : Bytes} {m n : Nat} (h : FailsFirst port B m) (hm : m ≤ n) :
    ¬ passes port B n :=
  fun hp => h.fails (hp m h.pos hm)

theorem FailsFirst.unique {port : Half} {B : Bytes} {m n : Nat} (hm : FailsFirst port B m)
    (hn : FailsFirst port B n) : m = n := by
  rcases Nat.lt_trichotomy m n with hlt | heq | hgt
  · exact absurd hn.before (hm.not_passes (by omega))
  · exact heq
  · exact absurd hm.before (hn.not_passes (by omega))

/-- `r` is the error of the first check that fails, or `ok` where checks 1 to `last` all pass. -/
def DecidedBy {α : Type} (port : Half) (B : Bytes) (last : Nat) (err : ErrorKind → α) (ok r : α) : Prop :=
  (∃ n, FailsFirst port B n ∧ r = err (kindOfStep n)) ∨ passes port B last ∧ r = ok

/-- One step of a parser: where the checks before it pass, its own decides or hands on to the rest. -/
theorem DecidedBy.guard {α : Type} {port : Half} {B : Bytes} {last : Nat} {err : ErrorKind → α} {ok r : α}
    {c : Prop} [Decidable c] (n : Nat) (hn : n < 10) (hp : passes port B n) (hc : c ↔ ¬ check port B (n + 1))
    (hr : passes port B (n + 1) → DecidedBy port B last err ok r) :
    DecidedBy port B last err ok (if c then err (kindOfStep (n + 1)) else r) := by
  split
  case isTrue h => exact .inl ⟨n + 1, ⟨by omega, hn, hp, hc.1 h⟩, rfl⟩
  case isFalse h => exact hr ((passes_iff ..).2 ⟨hp, not_not.1 (hc.not.1 h)⟩)

theorem FailsFirst.of_short {port : Half} {B : Bytes} (h : B.length < 20) : FailsFirst port B 1 :=
  ⟨by decide, by decide, passes_zero port B, Nat.not_le.2 h⟩

theorem passes_one {port : Half} {B : Bytes} (h : 20 ≤ B.length) : passes port B 1 :=
  (passes_iff port B 0).2 ⟨passes_zero port B, h⟩

/-- Steps 1 to 6 (R140). -/
theorem ipParse_decidedBy (port : Half) {B : Bytes} (h : 20 ≤ B.length) :
    DecidedBy port B 6 .error (.ok ⟨hlenOf B, be32 B 12, be32 B 16⟩) (ipParse B) := by
  have h0 : 0 < B.length := by omega
  have hverify : verify (B.take (hlenOf B)) = false ↔ ¬ check port B 4 := decide_eq_false_iff_not
  have hproto : B[9] ≠ udpProtocol ↔ ¬ check port B 6 := by
    rw [check, num8_of_lt, ne_eq, ← BitVec.toNat_inj]
    rfl
  simp only [ipParse, Nat.not_lt.2 h, dite_false, hiNibble_eq h0, headerLength_eq h0, be16_toNat]
  refine .guard 1 (by decide) (passes_one h) Iff.rfl fun p2 => ?_
  refine .guard 2 (by decide) p2 Iff.rfl fun p3 => ?_
  refine .guard 3 (by decide) p3 hverify fun p4 => ?_
  refine .guard 4 (by decide) p4 Iff.rfl fun p5 => ?_
  exact .guard 5 (by decide) p5 hproto fun p6 => .inr ⟨p6, rfl⟩

/-- The result where all ten checks pass (R168). -/
def decodedResult (B : Bytes) : Result :=
  .decoded (B.drop (hlenOf B + 8)) (BitVec.ofNat 32 (num32 B 12)) (BitVec.ofNat 16 (num16 B (hlenOf B)))

/-- Steps 7 to 10 and the result, once steps 1 to 6 have passed (R160). -/
theorem udpParse_decidedBy {port : Half} {B : Bytes} (h : 20 ≤ B.length) (p6 : passes port B 6) :
    DecidedBy port B 10 .err (decodedResult B) (udpParse port B ⟨hlenOf B, be32 B 12, be32 B 16⟩) := by
  rw [udpParse]
  split
  case isTrue h7 =>
    dsimp only at h7
    have hrem : ¬ hlenOf B + 8 ≤ B.length := by omega
    exact .inl ⟨7, ⟨by decide, by decide, p6, hrem⟩, rfl⟩
  case isFalse h7 =>
    dsimp only at h7
    have hrem : hlenOf B + 8 ≤ B.length := by omega
    have hlen : num16 B (hlenOf B + 4) ≠ B.length - hlenOf B ↔ ¬ check port B 8 := by
      rw [check]
      omega
    have hport : be16 B (hlenOf B + 2) ≠ port ↔ ¬ check port B 9 := by
      rw [check, ← be16_toNat, BitVec.toNat_inj]
    have hsum : (be16 B (hlenOf B + 6) ≠ 0x0000#16 ∧
        be16 B (hlenOf B + 6) ≠ udpStore (csum (checkedStream B))) ↔ ¬ check port B 10 := by
      rw [check, ← be16_toNat, BitVec.toNat_inj, Classical.not_imp, ne_eq, ne_eq, ← BitVec.toNat_inj]
      rfl
    simp only [be16_toNat, udpStream_eq h hrem]
    refine .guard 7 (by decide) ((passes_iff port B 6).2 ⟨p6, hrem⟩) hlen fun p8 => ?_
    refine .guard 8 (by decide) p8 hport fun p9 => ?_
    refine .guard 9 (by decide) p9 hsum fun p10 => .inr ⟨p10, ?_⟩
    have hudp : num16 B (hlenOf B + 4) + hlenOf B = B.length := p10 8 (by decide) (by decide)
    rw [decodedResult, be32_eq_ofNat, be16_eq_ofNat, List.take_of_length_le (by rw [List.length_drop]; omega)]

/-- The first check that fails decides the outcome of `DECODE`, and it succeeds where none fails (R205). -/
theorem runDecode_decidedBy (port : Half) (B : Bytes) :
    DecidedBy port B 10 .err (decodedResult B) (runDecode port B) := by
  rcases Nat.lt_or_ge B.length 20 with h | h
  · exact .inl ⟨1, .of_short h, by simp only [runDecode, ipParse, h, dite_true, kindOfStep]⟩
  · rcases ipParse_decidedBy port h with ⟨n, hn, hip⟩ | ⟨p6, hip⟩
    · exact .inl ⟨n, hn, by rw [runDecode, hip]⟩
    · rw [runDecode, hip]
      exact udpParse_decidedBy h p6

theorem FailsFirst.runDecode_eq {port : Half} {B : Bytes} {n : Nat} (hn : FailsFirst port B n) :
    runDecode port B = .err (kindOfStep n) := by
  rcases runDecode_decidedBy port B with ⟨m, hm, h⟩ | ⟨p10, -⟩
  · rw [h, hm.unique hn]
  · exact absurd p10 (hn.not_passes hn.le)

theorem passes.runDecode_eq {port : Half} {B : Bytes} (p10 : passes port B 10) :
    runDecode port B = decodedResult B := by
  rcases runDecode_decidedBy port B with ⟨m, hm, -⟩ | ⟨-, h⟩
  · exact absurd p10 (hm.not_passes hm.le)
  · exact h

theorem passes_of_runDecode_decoded {port : Half} {B p : Bytes} {a : Addr} {q : Half}
    (h : runDecode port B = .decoded p a q) : passes port B 10 := by
  rcases runDecode_decidedBy port B with ⟨n, -, herr⟩ | ⟨p10, -⟩
  · rw [h] at herr
    cases herr
  · exact p10

end Sys2Proof.Machine
end

section
/-!
SUPPORT. One flipped bit of a byte sequence: what the bytes and their one's complement sum become
(41_ipv4_parse.md R151).
-/

namespace Sys2Proof.Machine

/-- Flipping bit `k` adds or takes away `2^k`. -/
theorem xor_two_pow_cases (n k : Nat) : n ^^^ 2 ^ k = n + 2 ^ k ∨ n = (n ^^^ 2 ^ k) + 2 ^ k := by
  have hlow : (n ^^^ 2 ^ k) % 2 ^ k = n % 2 ^ k := by simp [Nat.xor_mod_two_pow]
  have hhigh : (n ^^^ 2 ^ k) / 2 ^ k = n / 2 ^ k ^^^ 1 := by simp [Nat.xor_div_two_pow]
  have hn := Nat.div_add_mod n (2 ^ k)
  have hx := Nat.div_add_mod (n ^^^ 2 ^ k) (2 ^ k)
  rw [hlow, hhigh] at hx
  rcases Nat.even_or_odd (n / 2 ^ k) with he | ho
  · rw [Nat.xor_one_of_even he, Nat.mul_add] at hx
    omega
  · rw [Nat.xor_one_of_odd ho, Nat.mul_sub] at hx
    have hle := Nat.le_mul_of_pos_right (2 ^ k) ho.pos
    omega

section FlipBit
variable {B : Bytes} {i k : Nat}

@[simp] theorem flipBit_length : (flipBit B i k).length = B.length := List.length_set

theorem num8_flipBit_of_ne {j : Nat} (h : i ≠ j) : num8 (flipBit B i k) j = num8 B j := by
  simp [num8, flipBit, h]

theorem num8_flipBit (hi : i < B.length) (hk : k < 8) : num8 (flipBit B i k) i = num8 B i ^^^ 2 ^ k := by
  have hpow : 2 ^ k < 2 ^ 8 := Nat.pow_lt_pow_right (by decide) hk
  simpa [num8, flipBit, hi] using hpow

/-- Bits 7 to 4 of a byte decide its high nibble. -/
theorem num8_flipBit_div_ne (hi : i < B.length) (hk : k < 8) (hk4 : 4 ≤ k) :
    num8 (flipBit B i k) i / 16 ≠ num8 B i / 16 := by
  have hpow : 2 ^ 4 ≤ 2 ^ k := Nat.pow_le_pow_right (by decide) hk4
  have hxor := xor_two_pow_cases (num8 B i) k
  rw [num8_flipBit hi hk]
  omega

/-- Bits 3 to 0 of a byte leave its high nibble as it is. -/
theorem num8_flipBit_div_eq (hi : i < B.length) (hk4 : k < 4) :
    num8 (flipBit B i k) i / 16 = num8 B i / 16 := by
  have hpow : 2 ^ k / 2 ^ 4 = 0 := Nat.div_eq_of_lt (Nat.pow_lt_pow_right (by decide) hk4)
  have hdiv := Nat.xor_div_two_pow (a := num8 B i) (b := 2 ^ k) (n := 4)
  rwa [hpow, Nat.xor_zero, ← num8_flipBit hi (by omega)] at hdiv

theorem hlenOf_flipBit (h : 1 ≤ i) : hlenOf (flipBit B i k) = hlenOf B := by
  rw [hlenOf, hlenOf, num8_flipBit_of_ne (by omega)]

theorem take_flipBit {n : Nat} (h : i < n) : (flipBit B i k).take n = flipBit (B.take n) i k := by
  simp [flipBit, List.take_set, h]

end FlipBit

/-- Writing byte `i` moves the word sum by the difference of the bytes, 256 times it at an even offset. -/
theorem wordSum_set : ∀ {X : Bytes} {i : Nat} (b : Byte), i < X.length →
    wordSum (X.set i b) + num8 X i * (if i % 2 = 0 then 256 else 1)
      = wordSum X + b.toNat * (if i % 2 = 0 then 256 else 1)
  | [x], 0, b, _ => by simp [Nat.add_comm]
  | x :: y :: X, 0, b, _ => by simp [wordSum_cons_cons]; omega
  | x :: y :: X, 1, b, _ => by simp [wordSum_cons_cons]; omega
  | x :: y :: X, i + 2, b, h => by
    have ih := wordSum_set (X := X) (i := i) b (by simpa using h)
    simp only [List.set_cons_succ, wordSum_cons_cons, num8_cons_succ, Nat.add_mod_right, Nat.add_assoc] at ih ⊢
    omega

/-- One flipped bit moves the word sum by a power of two below `2^16` (R151). -/
theorem wordSum_flipBit {X : Bytes} {i k : Nat} (hi : i < X.length) (hk : k < 8) :
    ∃ m < 16, wordSum (flipBit X i k) = wordSum X + 2 ^ m ∨ wordSum X = wordSum (flipBit X i k) + 2 ^ m := by
  have hbyte : (X.getD i 0#8 ^^^ BitVec.twoPow 8 k).toNat = num8 X i ^^^ 2 ^ k := by
    rw [← num8_flipBit hi hk]
    simp [num8, flipBit, hi]
  have hset := wordSum_set (X.getD i 0#8 ^^^ BitVec.twoPow 8 k) hi
  rw [hbyte, ← flipBit] at hset
  have hxor := xor_two_pow_cases (num8 X i) k
  rcases Nat.mod_two_eq_zero_or_one i with heven | hodd
  · rw [if_pos heven] at hset
    have hpow : 2 ^ (k + 8) = 2 ^ k * 256 := Nat.pow_add 2 k 8
    exact ⟨k + 8, by omega, by omega⟩
  · rw [if_neg (by omega)] at hset
    exact ⟨k, by omega, by omega⟩

/-- One flipped bit always changes the one's complement sum: no power of two is a multiple of 65535. -/
theorem sum1c_flipBit_ne {X : Bytes} {i k : Nat} (hi : i < X.length) (hk : k < 8) :
    sum1c (flipBit X i k) ≠ sum1c X := by
  obtain ⟨m, hm, hsum⟩ := wordSum_flipBit hi hk
  have hpos : 0 < 2 ^ m := Nat.two_pow_pos m
  have hle : 2 ^ m ≤ 2 ^ 15 := Nat.pow_le_pow_right (by decide) (by omega)
  have hmod := fold_mod (wordSum X)
  have hmod' := fold_mod (wordSum (flipBit X i k))
  rw [sum1c, sum1c]
  omega

end Sys2Proof.Machine
end

section
/-!
SUPPORT. Two datagrams that agree on every byte `DECODE` examines, but for the header checksum's sum
(30_encoding.md R93, 41_ipv4_parse.md R150).
-/

namespace Sys2Proof.Machine

/-- A byte that no check but the sum of the header reads: type of service, identification, flags, fragment
offset, time to live, header checksum and options (R150). -/
def unexamined (B : Bytes) (i : Nat) : Prop :=
  i = 1 ∨ (4 ≤ i ∧ i ≤ 8) ∨ i = 10 ∨ i = 11 ∨ (20 ≤ i ∧ i < hlenOf B)

/-- Sequences of one length that differ at most in unexamined bytes. -/
structure SameExamined (B B' : Bytes) : Prop where
  length_eq : B.length = B'.length
  num8_eq : ∀ i, ¬ unexamined B i → num8 B i = num8 B' i

theorem take_drop_congr {B B' : Bytes} {n m : Nat} (hlen : B.length = B'.length)
    (h : ∀ i, n ≤ i → i < n + m → num8 B i = num8 B' i) : (B.drop n).take m = (B'.drop n).take m := by
  refine List.ext_getElem (by simp [hlen]) fun j hj hj' => ?_
  simp only [List.length_take, List.length_drop] at hj hj'
  rw [List.getElem_take, List.getElem_take, List.getElem_drop, List.getElem_drop, ← BitVec.toNat_inj,
    ← num8_of_lt, ← num8_of_lt]
  exact h (n + j) (by omega) (by omega)

theorem drop_congr {B B' : Bytes} {n : Nat} (hlen : B.length = B'.length)
    (h : ∀ i, n ≤ i → num8 B i = num8 B' i) : B.drop n = B'.drop n := by
  have htake := take_drop_congr (m := B.length) hlen fun i hi _ => h i hi
  rwa [List.take_of_length_le (by simp), List.take_of_length_le (by simp [hlen])] at htake

section SameExamined
variable {B B' : Bytes} (h : SameExamined B B')
include h

theorem SameExamined.hlenOf_eq : hlenOf B = hlenOf B' := by
  rw [hlenOf, hlenOf, h.num8_eq 0 (by simp [unexamined])]

/-- The addresses, and everything behind a header of full length, are examined. -/
theorem SameExamined.num8_eq_of_body (h20 : 20 ≤ hlenOf B) {i : Nat} (hi : (12 ≤ i ∧ i < 20) ∨ hlenOf B ≤ i) :
    num8 B i = num8 B' i :=
  h.num8_eq i (by unfold unexamined; omega)

theorem SameExamined.num16_eq_of_body (h20 : 20 ≤ hlenOf B) {i : Nat} (hi : hlenOf B ≤ i) :
    num16 B i = num16 B' i := by
  rw [num16, num16, h.num8_eq_of_body h20 (by omega), h.num8_eq_of_body h20 (by omega)]

theorem SameExamined.num32_eq (h20 : 20 ≤ hlenOf B) : num32 B 12 = num32 B' 12 := by
  rw [num32, num32, h.num8_eq_of_body h20 (by omega), h.num8_eq_of_body h20 (by omega),
    h.num8_eq_of_body h20 (by omega), h.num8_eq_of_body h20 (by omega)]

theorem SameExamined.drop_eq (h20 : 20 ≤ hlenOf B) {n : Nat} (hn : hlenOf B ≤ n) : B.drop n = B'.drop n :=
  drop_congr h.length_eq fun _ hi => h.num8_eq_of_body h20 (.inr (Nat.le_trans hn hi))

theorem SameExamined.checkedStream_eq (h20 : 20 ≤ hlenOf B) : checkedStream B = checkedStream B' := by
  have haddr : (B.drop 12).take 8 = (B'.drop 12).take 8 :=
    take_drop_congr h.length_eq fun _ hi hi' => h.num8_eq_of_body h20 (.inl ⟨hi, hi'⟩)
  rw [checkedStream, checkedStream, haddr, ← h.hlenOf_eq, h.drop_eq h20 (by omega), h.drop_eq h20 (by omega),
    h.drop_eq h20 (by omega)]

theorem SameExamined.decodedResult_eq (h20 : 20 ≤ hlenOf B) : decodedResult B = decodedResult B' := by
  rw [decodedResult, decodedResult, ← h.hlenOf_eq, h.drop_eq h20 (by omega), h.num32_eq h20,
    h.num16_eq_of_body h20 (Nat.le_refl _)]

/-- Every check but the sum of the header reads examined bytes only; those behind step 3 rest on it. -/
theorem SameExamined.check_iff {port : Half} {n : Nat} (h4 : n ≠ 4) (h20 : 5 ≤ n → 20 ≤ hlenOf B) :
    check port B n ↔ check port B' n := by
  have hlen := h.length_eq
  have hhlen := h.hlenOf_eq
  match n with
  | 0 => exact Iff.rfl
  | 1 => rw [check, check, hlen]
  | 2 => rw [check, check, h.num8_eq 0 (by simp [unexamined])]
  | 3 => rw [check, check, hlen, hhlen]
  | 5 =>
    rw [check, check, hlen, num16, num16, h.num8_eq 2 (by unfold unexamined; omega),
      h.num8_eq 3 (by unfold unexamined; omega)]
  | 6 => rw [check, check, h.num8_eq 9 (by unfold unexamined; omega)]
  | 7 => rw [check, check, hlen, hhlen]
  | 8 => rw [check, check, ← hlen, ← hhlen, h.num16_eq_of_body (h20 (by decide)) (by omega)]
  | 9 => rw [check, check, ← hhlen, h.num16_eq_of_body (h20 (by decide)) (by omega)]
  | 10 =>
    rw [check, check, ← hhlen, h.num16_eq_of_body (h20 (by decide)) (by omega),
      h.checkedStream_eq (h20 (by decide))]
  | n + 11 => exact Iff.rfl

end SameExamined

theorem passes.hlenOf_ge {port : Half} {B : Bytes} {n : Nat} (h : passes port B n) (hn : 3 ≤ n) :
    20 ≤ hlenOf B :=
  (h 3 (by decide) hn).2

theorem SameExamined.passes {port : Half} {B B' : Bytes} (h : SameExamined B B') (h4 : check port B' 4)
    {n : Nat} (hp : passes port B n) : passes port B' n := by
  intro k hk hkn
  by_cases hk4 : k = 4
  · exact hk4 ▸ h4
  · exact (h.check_iff hk4 fun h5 => hp.hlenOf_ge (by omega)).1 (hp k hk hkn)

theorem SameExamined.failsFirst {port : Half} {B B' : Bytes} (h : SameExamined B B') (hB : check port B 4)
    (h4 : check port B' 4) {n : Nat} (hn : FailsFirst port B n) : FailsFirst port B' n where
  pos := hn.pos
  le := hn.le
  before := h.passes h4 hn.before
  fails := by
    have hn4 : n ≠ 4 := fun heq => hn.fails (heq ▸ hB)
    exact fun hc => hn.fails ((h.check_iff hn4 fun h5 => hn.before.hlenOf_ge (by omega)).2 hc)

theorem SameExamined.runDecode_eq {port : Half} {B B' : Bytes} (h : SameExamined B B') (hB : check port B 4)
    (h4 : check port B' 4) : runDecode port B = runDecode port B' := by
  rcases runDecode_decidedBy port B with ⟨n, hn, herr⟩ | ⟨p10, hok⟩
  · rw [herr, (h.failsFirst hB h4 hn).runDecode_eq]
  · rw [hok, (h.passes h4 p10).runDecode_eq, h.decodedResult_eq (p10.hlenOf_ge (by decide))]

end Sys2Proof.Machine
end

section
/-! SUPPORT. The statements of 41_ipv4_parse.md, settled in the order of their tiers. -/

namespace Sys2Proof.Machine
open Tests (passes_iff)

/-- Settles O24: every check but the header sum, which verifies for both, reads examined bytes only. -/
theorem unexaminedHeaderBytesDoNotMatter : Obligations.UnexaminedHeaderBytesDoNotMatter :=
  fun _ _ _ hlen hB hB' h => SameExamined.runDecode_eq ⟨hlen, h⟩ hB hB'

/-- Settles O25: a version bit leaves the length alone, a length bit the version, and a later bit everything
before step 4, whose sum every flipped bit changes. -/
theorem ipHeaderBitFlips : Obligations.IpHeaderBitFlips := by
  intro port B p a q i k hdec hi hk
  have p10 := passes_of_runDecode_decoded hdec
  have hlen : 20 ≤ B.length := p10 1 (by decide) (by decide)
  have hver : num8 B 0 / 16 = 4 := p10 2 (by decide) (by decide)
  have hhlen : hlenOf B ≤ B.length ∧ 20 ≤ hlenOf B := p10 3 (by decide) (by decide)
  have hsum : sum1c (B.take (hlenOf B)) = 0xFFFF := p10 4 (by decide) (by decide)
  have p1 : passes port (flipBit B i k) 1 := passes_one (by rwa [flipBit_length])
  refine ⟨?_, ?_, ?_⟩
  · rintro rfl hk4
    have hfail : ¬ check port (flipBit B 0 k) 2 := by
      rw [check, ← hver]
      exact num8_flipBit_div_ne (by omega) hk hk4
    exact FailsFirst.runDecode_eq ⟨by decide, by decide, p1, hfail⟩
  · rintro rfl hk4 hbad
    have p2 : passes port (flipBit B 0 k) 2 :=
      (passes_iff ..).2 ⟨p1, (num8_flipBit_div_eq (by omega) hk4).trans hver⟩
    have hfail : ¬ check port (flipBit B 0 k) 3 := by
      rw [check, flipBit_length]
      omega
    exact FailsFirst.runDecode_eq ⟨by decide, by decide, p2, hfail⟩
  · intro hi1
    have hbyte : num8 (flipBit B i k) 0 = num8 B 0 := num8_flipBit_of_ne (by omega)
    have p2 : passes port (flipBit B i k) 2 := (passes_iff ..).2 ⟨p1, by rwa [check, hbyte]⟩
    have p3 : passes port (flipBit B i k) 3 :=
      (passes_iff ..).2 ⟨p2, by rwa [check, hlenOf_flipBit hi1, flipBit_length]⟩
    have hfail : ¬ check port (flipBit B i k) 4 := by
      rw [check, hlenOf_flipBit hi1, take_flipBit hi, ← hsum]
      exact sum1c_flipBit_ne (by rw [List.length_take]; omega) hk
    exact FailsFirst.runDecode_eq ⟨by decide, by decide, p3, hfail⟩

/-- Settles O26: V-SENS-3, whose payload starts with a second UDP header. -/
theorem headerLengthFlipCanDecode : Obligations.HeaderLengthFlipCanDecode :=
  ⟨[0x45, 0x00, 0x00, 0x28, 0x00, 0x00, 0x00, 0x00, 0x40, 0x11, 0x66, 0xC3, 0x0A, 0x00, 0x00, 0x01,
    0x0A, 0x00, 0x00, 0x02, 0xDA, 0xC3, 0x23, 0x28, 0x00, 0x14, 0x00, 0x00, 0x11, 0x11, 0x23, 0x28,
    0x00, 0x0C, 0x00, 0x00, 0x65, 0x76, 0x69, 0x6C],
   [0x11, 0x11, 0x23, 0x28, 0x00, 0x0C, 0x00, 0x00, 0x65, 0x76, 0x69, 0x6C], [0x65, 0x76, 0x69, 0x6C],
   0x0A000001#32, 56003#16, 4369#16, by decide +kernel⟩

end Sys2Proof.Machine
end

section
/-!
SUPPORT. Two datagrams that differ in one range of bytes behind the IPv4 header, and one flipped bit of the UDP
header or payload: which of the ten checks still pass (42_udp_parse.md R161 to R165, R172).
-/

namespace Sys2Proof.Machine
open Tests (passes_iff)

/-! ### One range of bytes that differs -/

/-- Sequences of one length that differ at most in bytes `lo` to `hi - 1`. -/
structure SameOutside (lo hi : Nat) (B B' : Bytes) : Prop where
  length_eq : B'.length = B.length
  num8_eq : ∀ j, j < lo ∨ hi ≤ j → num8 B' j = num8 B j

theorem sameOutside_flipBit (B : Bytes) (i k : Nat) : SameOutside i (i + 1) B (flipBit B i k) :=
  ⟨flipBit_length, fun _ hj => num8_flipBit_of_ne (by omega)⟩

theorem num8_take_append_of_lt {B : Bytes} {n j : Nat} (hn : n ≤ B.length) (hj : j < n) (Y : Bytes) :
    num8 (B.take n ++ Y) j = num8 B j := by
  have hlt : j < (B.take n).length := by rw [List.length_take]; omega
  rw [num8_of_lt (by rw [List.length_append]; omega), num8_of_lt (by omega), List.getElem_append_left hlt,
    List.getElem_take]

/-- A tail in place of one of the same length. -/
theorem sameOutside_take_append {B Y : Bytes} {n : Nat} (h : n + Y.length = B.length) :
    SameOutside n B.length B (B.take n ++ Y) := by
  have hlen : (B.take n ++ Y).length = B.length := by
    rw [List.length_append, List.length_take]
    omega
  refine ⟨hlen, fun j hj => ?_⟩
  rcases hj with hj | hj
  · exact num8_take_append_of_lt (by omega) hj Y
  · rw [num8_of_length_le hj, num8_of_length_le (by omega)]

section SameOutside
variable {lo hi j : Nat} {B B' : Bytes} (h : SameOutside lo hi B B')
include h

theorem SameOutside.num16_eq (hj : j + 2 ≤ lo ∨ hi ≤ j) : num16 B' j = num16 B j := by
  rw [num16, num16, h.num8_eq j (by omega), h.num8_eq (j + 1) (by omega)]

theorem SameOutside.num32_eq (hj : j + 4 ≤ lo ∨ hi ≤ j) : num32 B' j = num32 B j := by
  rw [num32, num32, h.num8_eq j (by omega), h.num8_eq (j + 1) (by omega), h.num8_eq (j + 2) (by omega),
    h.num8_eq (j + 3) (by omega)]

theorem SameOutside.hlenOf_eq (hlo : 0 < lo) : hlenOf B' = hlenOf B := by
  rw [hlenOf, hlenOf, h.num8_eq 0 (.inl hlo)]

variable {port : Half} (hlo : hlenOf B ≤ lo)
include hlo

/-- Steps 1 to 7 read the IPv4 header and the length of the datagram only. -/
theorem SameOutside.passes_seven (p7 : passes port B 7) : passes port B' 7 := by
  have h20 : 20 ≤ hlenOf B := p7.hlenOf_ge (by decide)
  have hhlen : hlenOf B' = hlenOf B := h.hlenOf_eq (by omega)
  have htake : B'.take (hlenOf B) = B.take (hlenOf B) :=
    take_drop_congr (n := 0) h.length_eq fun j _ hj => h.num8_eq j (by omega)
  intro k hk hk7
  have hc := p7 k hk hk7
  match k with
  | 1 => rwa [check, h.length_eq]
  | 2 => rwa [check, h.num8_eq 0 (by omega)]
  | 3 => rwa [check, hhlen, h.length_eq]
  | 4 => rwa [check, hhlen, htake]
  | 5 => rwa [check, h.num16_eq (by omega), h.length_eq]
  | 6 => rwa [check, h.num8_eq 9 (by omega)]
  | 7 => rwa [check, hhlen, h.length_eq]

/-- Step 8 reads the UDP length field. -/
theorem SameOutside.passes_eight (hlen : hlenOf B + 6 ≤ lo ∨ hi ≤ hlenOf B + 4) (p8 : passes port B 8) :
    passes port B' 8 := by
  obtain ⟨p7, hc⟩ := (passes_iff ..).1 p8
  have h20 : 20 ≤ hlenOf B := p7.hlenOf_ge (by decide)
  refine (passes_iff ..).2 ⟨h.passes_seven hlo p7, ?_⟩
  rwa [check, h.hlenOf_eq (by omega), h.num16_eq (by omega), h.length_eq]

/-- Step 9 reads the destination port. -/
theorem SameOutside.passes_nine (hports : hlenOf B + 6 ≤ lo ∨ hi ≤ hlenOf B + 2) (p9 : passes port B 9) :
    passes port B' 9 := by
  obtain ⟨p8, hc⟩ := (passes_iff ..).1 p9
  have h20 : 20 ≤ hlenOf B := p8.hlenOf_ge (by decide)
  refine (passes_iff ..).2 ⟨h.passes_eight hlo (by omega) p8, ?_⟩
  rwa [check, h.hlenOf_eq (by omega), h.num16_eq (by omega)]

end SameOutside

/-- A zero checksum field passes step 10 without a sum (R165). -/
theorem passes.ten_of_zero_field {port : Half} {B : Bytes} (p9 : passes port B 9)
    (hf : num16 B (hlenOf B + 6) = 0) : passes port B 10 :=
  (passes_iff ..).2 ⟨p9, fun hne => absurd hf hne⟩

/-! ### A flipped bit and the parts of a sequence -/

theorem num16_lt (B : Bytes) (j : Nat) : num16 B j < 65536 := by
  have hhigh : num8 B j < 256 := BitVec.isLt _
  have hlow : num8 B (j + 1) < 256 := BitVec.isLt _
  rw [num16]
  omega

section FlipBit
variable {B X : Bytes} {i j k n : Nat}

theorem num8_flipBit_ne (hi : i < B.length) (hk : k < 8) : num8 (flipBit B i k) i ≠ num8 B i := by
  have hpos : 0 < 2 ^ k := Nat.two_pow_pos k
  have hxor := xor_two_pow_cases (num8 B i) k
  rw [num8_flipBit hi hk]
  omega

theorem num16_flipBit_ne (hi : i < B.length) (hk : k < 8) (hj : i = j ∨ i = j + 1) :
    num16 (flipBit B i k) j ≠ num16 B j := by
  have hbyte := num8_flipBit_ne hi hk
  rw [num16, num16]
  rcases hj with rfl | rfl
  · rw [num8_flipBit_of_ne (by omega : i ≠ i + 1)]
    omega
  · rw [num8_flipBit_of_ne (by omega : j + 1 ≠ j)]
    omega

theorem flipBit_ne (hi : i < B.length) (hk : k < 8) : flipBit B i k ≠ B :=
  fun heq => num8_flipBit_ne hi hk (by rw [heq])

theorem drop_flipBit_of_lt (h : i < n) : (flipBit B i k).drop n = B.drop n := List.drop_set_of_lt h

theorem drop_flipBit (h : n ≤ i) : (flipBit B i k).drop n = flipBit (B.drop n) (i - n) k := by
  have hbyte : (B.drop n).getD (i - n) 0#8 = B.getD i 0#8 := by
    rw [List.getD_eq_getElem?_getD, List.getElem?_drop, Nat.add_sub_cancel' h, List.getD_eq_getElem?_getD]
  rw [flipBit, flipBit, hbyte, List.drop_set, if_neg (by omega)]

theorem flipBit_append_left (h : i < X.length) (Y : Bytes) : flipBit (X ++ Y) i k = flipBit X i k ++ Y := by
  rw [flipBit, flipBit, List.set_append_left _ _ h, List.getD_append _ _ _ _ h]

theorem flipBit_append_right (h : X.length ≤ i) (Y : Bytes) :
    flipBit (X ++ Y) i k = X ++ flipBit Y (i - X.length) k := by
  rw [flipBit, flipBit, List.set_append_right _ _ h, List.getD_append_right _ _ _ _ h]

end FlipBit

/-! ### The sum of step 10 (R164, R172) -/

/-- The protocol byte of the pseudo-header is not 0 (R128). -/
theorem sum1c_checkedStream_ne_zero (B : Bytes) : sum1c (checkedStream B) ≠ 0 := by
  intro hzero
  have hmem : 17#8 ∈ checkedStream B := by simp [checkedStream]
  exact absurd ((sum1c_eq_zero_iff _).1 hzero _ hmem) (by decide)

/-- Streams that do not sum to 0 and have one stored checksum have one sum (R125, R128). -/
theorem sum1c_eq_of_udpStore_csum_eq {X Y : Bytes} (hX : sum1c X ≠ 0) (hY : sum1c Y ≠ 0)
    (h : udpStore (csum X) = udpStore (csum Y)) : sum1c X = sum1c Y := by
  have hXle := sum1c_le X
  have hYle := sum1c_le Y
  rw [BitVec.toNat_eq, udpStore_toNat, udpStore_toNat, csum_toNat, csum_toNat] at h
  split at h <;> split at h <;> omega

section Stream
variable {B : Bytes} {i k : Nat} (h20 : 20 ≤ hlenOf B) (hrem : hlenOf B + 8 ≤ B.length) (hlo : hlenOf B ≤ i)
  (hfield : i < hlenOf B + 4 ∨ hlenOf B + 8 ≤ i)
include h20 hrem hlo hfield

/-- A bit of a port or of the payload stands in the stream once, behind the 12 bytes of the pseudo-header. -/
theorem checkedStream_flipBit :
    checkedStream (flipBit B i k) = flipBit (checkedStream B) (12 + (i - hlenOf B)) k := by
  have hsame (n m : Nat) (hout : n + m ≤ i ∨ i < n) :
      ((flipBit B i k).drop n).take m = (B.drop n).take m :=
    take_drop_congr flipBit_length fun j _ _ => num8_flipBit_of_ne (by omega)
  have hpseudo : ((B.drop 12).take 8 ++ [0#8, 17#8] ++ (B.drop (hlenOf B + 4)).take 2).length = 12 := by
    simp only [List.length_append, List.length_take, List.length_drop, List.length_cons, List.length_nil]
    omega
  have hports : ((B.drop (hlenOf B)).take 6).length = 6 := by
    simp only [List.length_take, List.length_drop]
    omega
  rw [checkedStream, checkedStream, hlenOf_flipBit (by omega), hsame 12 8 (by omega),
    hsame (hlenOf B + 4) 2 (by omega)]
  generalize (B.drop 12).take 8 ++ [0#8, 17#8] ++ (B.drop (hlenOf B + 4)).take 2 = A at hpseudo ⊢
  rcases hfield with hport | hdata
  · simp only [List.append_assoc]
    rw [drop_flipBit hlo, take_flipBit (by omega), drop_flipBit_of_lt (by omega),
      flipBit_append_right (by omega), flipBit_append_left (by omega), hpseudo, Nat.add_sub_cancel_left]
  · rw [hsame (hlenOf B) 6 (by omega), drop_flipBit hdata, flipBit_append_right]
    · congr 2
      simp only [List.length_append, List.length_cons, List.length_nil]
      omega
    · simp only [List.length_append, List.length_cons, List.length_nil]
      omega

/-- The stored checksum tells a bit of a port or of the payload. -/
theorem udpStore_csum_checkedStream_flipBit_ne (hi : i < B.length) (hk : k < 8) :
    udpStore (csum (checkedStream (flipBit B i k))) ≠ udpStore (csum (checkedStream B)) := by
  intro heq
  have hsum := sum1c_eq_of_udpStore_csum_eq (sum1c_checkedStream_ne_zero _) (sum1c_checkedStream_ne_zero _) heq
  rw [checkedStream_flipBit h20 hrem hlo hfield] at hsum
  refine sum1c_flipBit_ne ?_ hk hsum
  simp only [checkedStream, List.length_append, List.length_take, List.length_drop, List.length_cons,
    List.length_nil]
  omega

end Stream

/-! ### One flipped bit behind the IPv4 header of a datagram that passes (R172) -/

section Flip
variable {port : Half} {B : Bytes} {i k : Nat} (p10 : passes port B 10)
include p10

theorem runDecode_flipBit_dstPort (hi : i < B.length) (hk : k < 8) (h2 : hlenOf B + 2 ≤ i)
    (h4 : i < hlenOf B + 4) : runDecode port (flipBit B i k) = .err .portMismatch := by
  have hsame := sameOutside_flipBit B i k
  have h20 : 20 ≤ hlenOf B := p10.hlenOf_ge (by decide)
  obtain ⟨p9, -⟩ := (passes_iff ..).1 p10
  obtain ⟨p8, hport⟩ := (passes_iff ..).1 p9
  have hfail : ¬ check port (flipBit B i k) 9 := by
    rw [check, hsame.hlenOf_eq (by omega), ← hport]
    exact num16_flipBit_ne hi hk (by omega)
  exact FailsFirst.runDecode_eq ⟨by decide, by decide, hsame.passes_eight (by omega) (by omega) p8, hfail⟩

theorem runDecode_flipBit_length (hi : i < B.length) (hk : k < 8) (h4 : hlenOf B + 4 ≤ i)
    (h6 : i < hlenOf B + 6) : runDecode port (flipBit B i k) = .err .lengthMismatch := by
  have hsame := sameOutside_flipBit B i k
  have h20 : 20 ≤ hlenOf B := p10.hlenOf_ge (by decide)
  have hudp : num16 B (hlenOf B + 4) + hlenOf B = B.length := p10 8 (by decide) (by decide)
  have p7 : passes port B 7 := fun j hj hj7 => p10 j hj (by omega)
  have hfield : num16 (flipBit B i k) (hlenOf B + 4) ≠ num16 B (hlenOf B + 4) :=
    num16_flipBit_ne hi hk (by omega)
  have hfail : ¬ check port (flipBit B i k) 8 := by
    rw [check, hsame.hlenOf_eq (by omega), flipBit_length]
    omega
  exact FailsFirst.runDecode_eq ⟨by decide, by decide, hsame.passes_seven (by omega) p7, hfail⟩

variable (hlo : hlenOf B ≤ i) (hfield : i < hlenOf B + 2 ∨ hlenOf B + 8 ≤ i)
include hlo hfield

theorem num16_checksum_flipBit :
    num16 (flipBit B i k) (hlenOf (flipBit B i k) + 6) = num16 B (hlenOf B + 6) := by
  have h20 : 20 ≤ hlenOf B := p10.hlenOf_ge (by decide)
  rw [hlenOf_flipBit (by omega), (sameOutside_flipBit B i k).num16_eq (by omega)]

theorem passes_nine_flipBit : passes port (flipBit B i k) 9 := by
  obtain ⟨p9, -⟩ := (passes_iff ..).1 p10
  exact (sameOutside_flipBit B i k).passes_nine hlo (by omega) p9

theorem runDecode_flipBit_of_checksum (hi : i < B.length) (hk : k < 8)
    (hf : num16 B (hlenOf B + 6) ≠ 0) :
    runDecode port (flipBit B i k) = .err .badUdpChecksum := by
  have h20 : 20 ≤ hlenOf B := p10.hlenOf_ge (by decide)
  have hrem : hlenOf B + 8 ≤ B.length := p10 7 (by decide) (by decide)
  have hsum : num16 B (hlenOf B + 6) = (udpStore (csum (checkedStream B))).toNat :=
    p10 10 (by decide) (by decide) hf
  have hfail : ¬ check port (flipBit B i k) 10 := by
    rw [check, num16_checksum_flipBit p10 hlo hfield]
    intro hc
    have heq := (hc hf).symm.trans hsum
    rw [BitVec.toNat_inj] at heq
    exact udpStore_csum_checkedStream_flipBit_ne h20 hrem hlo (by omega) hi hk heq
  exact FailsFirst.runDecode_eq
    ⟨by decide, by decide, passes_nine_flipBit p10 hlo hfield, hfail⟩

theorem runDecode_flipBit_of_zero_checksum (hf : num16 B (hlenOf B + 6) = 0) :
    runDecode port (flipBit B i k) = decodedResult (flipBit B i k) :=
  ((passes_nine_flipBit p10 hlo hfield).ten_of_zero_field
    ((num16_checksum_flipBit p10 hlo hfield).trans hf)).runDecode_eq

end Flip

end Sys2Proof.Machine
end

section
/-! SUPPORT. The statements of 42_udp_parse.md, settled in the order of their tiers. -/

namespace Sys2Proof.Machine

/-- Settles O21: the outcome is the payload with its source, and the command ends with it as its output. -/
theorem decodeDeliversThePayload : Obligations.DecodeDeliversThePayload := by
  intro c s hduty p10 B
  have hexec : exec (.decode c) s = .next (s.finish (decodedResult B)) :=
    exec_of_outcome ((underDuty_ok_iff ..).2 ⟨hduty, p10.runDecode_eq⟩)
  rw [hexec, State.finish, State.withOutput_of_some _ _ rfl, decodedResult, Result.pack, List.length_drop,
    State.input_length, Nat.sub_sub]

/-- Settles O23: another payload of the same length leaves steps 1 to 9 and the zero field as they are. -/
theorem zeroUdpChecksumIsAccepted : Obligations.ZeroUdpChecksumIsAccepted := by
  intro port B payload p9 hf hlen
  have hsame := sameOutside_take_append hlen
  have h20 : 20 ≤ hlenOf B := p9.hlenOf_ge (by decide)
  have hhlen := hsame.hlenOf_eq (by omega)
  have p9' : passes port (B.take (hlenOf B + 8) ++ payload) 9 := hsame.passes_nine (by omega) (by omega) p9
  have hf' : num16 (B.take (hlenOf B + 8) ++ payload) (hlenOf B + 6) = 0 :=
    (hsame.num16_eq (by omega)).trans hf
  have htail : (B.take (hlenOf B + 8) ++ payload).drop (hlenOf B + 8) = payload :=
    List.drop_left' (by rw [List.length_take]; omega)
  rw [(p9'.ten_of_zero_field (by rw [hhlen, hf'])).runDecode_eq, decodedResult, hhlen, htail,
    hsame.num32_eq (by omega), hsame.num16_eq (by omega)]

/-- Settles O27: a flipped bit changes the field it stands in, and the sum where it stands in the stream once;
with a zero checksum field it changes the source port or the payload that is delivered. -/
theorem udpBitFlips : Obligations.UdpBitFlips := by
  intro port B p a q i k hdec hlo hi hk h f
  have p10 := passes_of_runDecode_decoded hdec
  have h20 : 20 ≤ h := p10.hlenOf_ge (by decide)
  have hsame := sameOutside_flipBit B i k
  have hhlen : hlenOf (flipBit B i k) = h := hlenOf_flipBit (by omega)
  obtain ⟨rfl, rfl, rfl⟩ := Result.decoded.inj (p10.runDecode_eq.symm.trans hdec)
  refine ⟨fun h2 hf => runDecode_flipBit_of_checksum p10 hlo (.inl h2) hi hk hf, fun h2 hf => ?_,
    runDecode_flipBit_dstPort p10 hi hk, runDecode_flipBit_length p10 hi hk,
    fun h8 hf => runDecode_flipBit_of_checksum p10 hlo (.inr h8) hi hk hf, fun h8 hf => ?_⟩
  · refine ⟨BitVec.ofNat 16 (num16 (flipBit B i k) h), fun heq => ?_, ?_⟩
    · have hnum := congrArg BitVec.toNat heq
      rw [BitVec.toNat_ofNat, BitVec.toNat_ofNat, Nat.mod_eq_of_lt (num16_lt ..),
        Nat.mod_eq_of_lt (num16_lt ..)] at hnum
      exact num16_flipBit_ne hi hk (by omega) hnum
    · rw [runDecode_flipBit_of_zero_checksum p10 hlo (.inl h2) hf, decodedResult, hhlen,
        drop_flipBit_of_lt (by omega), hsame.num32_eq (by omega)]
  · refine ⟨flipBit (B.drop (h + 8)) (i - (h + 8)) k,
      flipBit_ne (by rw [List.length_drop]; omega) hk, ?_⟩
    rw [runDecode_flipBit_of_zero_checksum p10 hlo (.inr h8) hf, decodedResult, hhlen,
      drop_flipBit h8, hsame.num32_eq (by omega), hsame.num16_eq (by omega)]

/-- Settles O28: steps 3 and 7 leave at least 20 and 8 bytes before the payload. -/
theorem decodeOutputBound : Obligations.DecodeOutputBound := by
  intro port B p a q hdec
  have p10 := passes_of_runDecode_decoded hdec
  have h20 : 20 ≤ hlenOf B := p10.hlenOf_ge (by decide)
  have hrem : hlenOf B + 8 ≤ B.length := p10 7 (by decide) (by decide)
  obtain ⟨rfl, -, -⟩ := Result.decoded.inj (p10.runDecode_eq.symm.trans hdec)
  rw [List.length_drop]
  omega

end Sys2Proof.Machine
end

section
/-!
SUPPORT. `ENCODE` (43_encode.md): its outcome by size, the two checksums it emits, and the datagram as the ten
checks of `DECODE` read it.
-/

namespace Sys2Proof.Machine

/-! ### The outcome, by size (R182, R190) -/

theorem runEncode_of_fits {cfg : Config} {P : Bytes} (h : 28 + P.length ≤ cfg.maxDgram.toNat) (c : Operands) :
    runEncode cfg c P = .encoded (datagram cfg c P) :=
  if_neg (by omega)

theorem runEncode_of_oversize {cfg : Config} {P : Bytes} (h : cfg.maxDgram.toNat < 28 + P.length)
    (c : Operands) : runEncode cfg c P = .err .payloadTooLarge :=
  if_pos (by omega)

theorem runEncode_eq_encoded_iff (cfg : Config) (c : Operands) (P G : Bytes) :
    runEncode cfg c P = .encoded G ↔ 28 + P.length ≤ cfg.maxDgram.toNat ∧ G = datagram cfg c P := by
  rcases Nat.lt_or_ge cfg.maxDgram.toNat (28 + P.length) with h | h
  · simp [runEncode_of_oversize h, Nat.not_le.2 h]
  · simp [runEncode_of_fits h, h, eq_comm]

theorem outcomeOf_encode_of_fits {s : State} {c : Operands} (h : 28 + c.inLen ≤ s.cfg.maxDgram.toNat) :
    outcomeOf s.cfg (.encode c) (s.input c.inLen) = .ok (.encoded (datagram s.cfg c (s.input c.inLen))) :=
  congrArg Except.ok (runEncode_of_fits (by rwa [State.input_length]) c)

/-! ### Written fields, as bytes and as numbers (R12) -/

theorem enc16_eq_twoBytes (v : Half) : enc16 v = twoBytes v.toNat := by
  simp only [enc16, twoBytes, List.cons.injEq, ← BitVec.toNat_inj, BitVec.extractLsb'_toNat,
    BitVec.toNat_ofNat, Nat.shiftRight_eq_div_pow, and_true, true_and]
  omega

theorem enc16_ofNat {v : Nat} (h : v ≤ 65535) : enc16 (BitVec.ofNat 16 v) = twoBytes v := by
  rw [enc16_eq_twoBytes, BitVec.toNat_ofNat, Nat.mod_eq_of_lt (by omega)]

theorem enc32_eq_fourBytes (a : Addr) : enc32 a = fourBytes a.toNat := by
  simp only [enc32, fourBytes, twoBytes, List.cons_append, List.nil_append, List.cons.injEq,
    ← BitVec.toNat_inj, BitVec.extractLsb'_toNat, BitVec.toNat_ofNat, Nat.shiftRight_eq_div_pow, and_true]
  omega

theorem enc16_inj {v w : Half} (h : enc16 v = enc16 w) : v = w := by
  rw [← BitVec.toNat_inj, ← wordSum_enc16 v, h, wordSum_enc16]

theorem num32_enc32 (a : Addr) : num32 (enc32 a) 0 = a.toNat := by
  simp only [num32, enc32, num8_cons_zero, num8_cons_succ, BitVec.extractLsb'_toNat,
    Nat.shiftRight_eq_div_pow]
  omega

theorem enc32_inj {a b : Addr} (h : enc32 a = enc32 b) : a = b := by
  rw [← BitVec.toNat_inj, ← num32_enc32 a, h, num32_enc32]

section Field
variable {B : Bytes} {i : Nat}

/-- The number at an offset where a 16-bit field was written. -/
theorem num16_of_enc16 {v : Half} (hi : i + 1 < B.length) (h : (B.drop i).take 2 = enc16 v) :
    num16 B i = v.toNat := by
  rw [← be16_toNat hi, enc16_inj ((enc16_be16 hi).trans h)]

/-- The number at an offset where a 32-bit field was written. -/
theorem num32_of_enc32 {a : Addr} (hi : i + 3 < B.length) (h : (B.drop i).take 4 = enc32 a) :
    num32 B i = a.toNat := by
  rw [← be32_toNat hi, enc32_inj ((enc32_be32 hi).trans h)]

end Field

section Layout
variable {n : Nat} (h : 28 + n ≤ 65535)
include h

/-- R184, byte for byte. -/
theorem udpHeader_eq_bytes (c : Operands) (k : Half) :
    udpHeader c n k =
      twoBytes c.srcPort.toNat ++ twoBytes c.port.toNat ++ twoBytes (8 + n) ++ twoBytes k.toNat := by
  rw [udpHeader, udpLength, enc16_ofNat (by omega), enc16_eq_twoBytes, enc16_eq_twoBytes, enc16_eq_twoBytes]

/-- R187, byte for byte. -/
theorem ipHeader_eq_bytes (cfg : Config) (c : Operands) (k : Half) :
    ipHeader cfg c n k = [0x45#8, cfg.tos] ++ twoBytes (28 + n) ++ twoBytes cfg.ident.toNat
      ++ twoBytes cfg.flagsFrag.toNat ++ [cfg.ttl, 17#8] ++ twoBytes k.toNat
      ++ fourBytes cfg.srcAddr.toNat ++ fourBytes (resolvedDst cfg c).toNat := by
  rw [ipHeader, ← Nat.add_assoc, enc16_ofNat h, enc16_eq_twoBytes, enc16_eq_twoBytes, enc16_eq_twoBytes,
    enc32_eq_fourBytes, enc32_eq_fourBytes, udpProtocol]

/-- R100 around the UDP length of R184, byte for byte. -/
theorem pseudo_eq_bytes (src dst : Addr) :
    pseudo src dst (udpLength n) =
      fourBytes src.toNat ++ fourBytes dst.toNat ++ [0#8, 17#8] ++ twoBytes (8 + n) := by
  rw [pseudo, udpLength, enc16_ofNat (by omega), enc32_eq_fourBytes, enc32_eq_fourBytes, udpProtocol]

end Layout

/-! ### The emitted checksums (R185, R188, R191) -/

section Checksums
variable (cfg : Config) (c : Operands)

theorem verify_ipHeader (n : Nat) : verify (ipHeader cfg c n (ipChecksum cfg c n)) = true :=
  verify_field_csum (A := (ipHeader cfg c n 0x0000#16).take 10) (by simp)
    ((ipHeader cfg c n 0x0000#16).drop 12)

/-- The first byte of the header is not 0 (R128). -/
theorem ipChecksum_ne_ones (n : Nat) : ipChecksum cfg c n ≠ 0xFFFF#16 := by
  intro h
  have hmem : 0x45#8 ∈ ipHeader cfg c n 0x0000#16 := List.mem_cons_self
  exact absurd ((csum_eq_ones_iff _).1 h _ hmem) (by decide)

theorem udpChecksum_ne_zero (P : Bytes) : udpChecksum cfg c P ≠ 0x0000#16 := udpStore_ne_zero _

theorem verify_udpDatagram (P : Bytes) :
    verify (pseudo cfg.srcAddr (resolvedDst cfg c) (udpLength P.length)
      ++ udpHeader c P.length (udpChecksum cfg c P) ++ P) = true := by
  have hA : (pseudo cfg.srcAddr (resolvedDst cfg c) (udpLength P.length)
      ++ (enc16 c.srcPort ++ enc16 c.port ++ enc16 (udpLength P.length))).length % 2 = 0 := by simp
  exact (verify_field_iff_eq_udpStore hA P (udpChecksum_ne_zero cfg c P)).2 rfl

end Checksums

/-! ### The datagram as `DECODE` reads it (R192) -/

section Datagram
variable (cfg : Config) (c : Operands) (P : Bytes)

/-- A 16-bit field of the 28 header bytes. -/
theorem num16_datagram {v : Half} (i : Nat) (hi : i + 1 < 28)
    (h : ((datagram cfg c P).drop i).take 2 = enc16 v) : num16 (datagram cfg c P) i = v.toNat :=
  num16_of_enc16 (by rw [datagram_length]; omega) h

theorem num16_datagram_ipChecksum : num16 (datagram cfg c P) 10 = (ipChecksum cfg c P.length).toNat :=
  num16_datagram cfg c P 10 (by decide) rfl

theorem num16_datagram_udpChecksum : num16 (datagram cfg c P) 26 = (udpChecksum cfg c P).toNat :=
  num16_datagram cfg c P 26 (by decide) rfl

theorem num8_datagram_first : num8 (datagram cfg c P) 0 = 0x45 := rfl

theorem hlenOf_datagram : hlenOf (datagram cfg c P) = 20 := by
  rw [hlenOf, num8_datagram_first]

theorem take_datagram : (datagram cfg c P).take 20 = ipHeader cfg c P.length (ipChecksum cfg c P.length) := rfl

theorem checkedStream_datagram :
    checkedStream (datagram cfg c P) = pseudo cfg.srcAddr (resolvedDst cfg c) (udpLength P.length)
      ++ udpHeader c P.length 0x0000#16 ++ P := by
  rw [checkedStream, hlenOf_datagram]
  rfl

theorem decodedResult_datagram : decodedResult (datagram cfg c P) = .decoded P cfg.srcAddr c.srcPort := by
  have hlen := datagram_length cfg c P
  have hpayload : (datagram cfg c P).drop 28 = P := rfl
  have hsrc : num32 (datagram cfg c P) 12 = cfg.srcAddr.toNat := num32_of_enc32 (by rw [hlen]; omega) rfl
  have hport : num16 (datagram cfg c P) 20 = c.srcPort.toNat := num16_datagram cfg c P 20 (by decide) rfl
  rw [decodedResult, hlenOf_datagram, hpayload, hsrc, hport]
  simp only [BitVec.ofNat_toNat, BitVec.setWidth_eq]

/-- Every check of `DECODE` passes on a datagram that fits a 16-bit length, for its own destination port. -/
theorem passes_datagram (h : 28 + P.length ≤ 65535) : passes c.port (datagram cfg c P) 10 := by
  have hhlen := hlenOf_datagram cfg c P
  have hlen := datagram_length cfg c P
  have htotal : num16 (datagram cfg c P) 2 = 28 + P.length := by
    rw [num16_datagram cfg c P 2 (by decide) rfl, BitVec.toNat_ofNat]
    omega
  have hudp : num16 (datagram cfg c P) 24 = 8 + P.length := by
    rw [num16_datagram cfg c P 24 (by decide) rfl, udpLength, BitVec.toNat_ofNat]
    omega
  have hport : num16 (datagram cfg c P) 22 = c.port.toNat := num16_datagram cfg c P 22 (by decide) rfl
  intro k hk hk10
  interval_cases k
  · rw [check]; omega
  · rw [check, num8_datagram_first]
  · rw [check]; omega
  · rw [check, hhlen, take_datagram]
    exact (verify_iff _).1 (verify_ipHeader cfg c P.length)
  · rw [check, htotal, hlen]
  · rfl
  · rw [check]; omega
  · rw [check, hhlen, hudp]; omega
  · rw [check, hhlen, hport]
  · rw [check, hhlen, num16_datagram_udpChecksum, checkedStream_datagram]
    exact fun _ => rfl

theorem runDecode_datagram (h : 28 + P.length ≤ 65535) :
    runDecode c.port (datagram cfg c P) = .decoded P cfg.srcAddr c.srcPort :=
  (passes_datagram cfg c P h).runDecode_eq.trans (decodedResult_datagram cfg c P)

end Datagram

/-- `DECODE` of a datagram that fits, for its own destination port, delivers its payload and its sender. -/
theorem outcomeOf_decode_datagram {cfg : Config} {P : Bytes} {c c' : Operands}
    (h : 28 + P.length ≤ cfg.maxDgram.toNat) (hlen : c'.inLen = 28 + P.length) (hport : c'.port = c.port) :
    outcomeOf cfg (.decode c') (datagram cfg c P) = .ok (.decoded P cfg.srcAddr c.srcPort) := by
  have hmax : 28 + P.length ≤ 65535 := h.trans (Nat.le_of_lt_succ cfg.maxDgram.isLt)
  exact (underDuty_ok_iff ..).2 ⟨hlen.trans_le h, by rw [hport, runDecode_datagram cfg c P hmax]⟩

/-! ### Issued commands and the copy of the output to `IBUF` (R71, R104) -/

section Issue
variable (i : Instr)

theorem decodeDescriptor_encodeDescriptor (h : i.operands.inLen ≤ 65535) :
    decodeDescriptor (encodeDescriptor i) = .ok i :=
  commandDecodesBack i ((Instr.wellFormed_iff i).2 h)

/-- `Exec` of an encoded command is the command's outcome (R39). -/
theorem transact_encodeDescriptor (h : i.operands.inLen ≤ 65535) (cfg : Config) (B : Bytes) :
    transact cfg (encodeDescriptor i) B = outcomeOf cfg i B :=
  transact_of_decode (decodeDescriptor_encodeDescriptor i h) cfg B

theorem issue_encodeDescriptor {s : State} {r : Result} (hr : s.rst = false) (hn : s.txn = none)
    (hlen : i.operands.inLen ≤ 65535) (h : outcomeOf s.cfg i (s.input i.operands.inLen) = .ok r) :
    issue (encodeDescriptor i) s = .next ((s.issued (encodeDescriptor i)).finish r) := by
  refine (issue_next_iff hr hn ..).2 ⟨r, ?_, rfl⟩
  rw [transact_encodeDescriptor i hlen,
    ← decodeDescriptor_operands (decodeDescriptor_encodeDescriptor i hlen), h]

end Issue

/-- `out_len` of the last result counts the output of the command that delivered it (R86). -/
theorem State.finish_lastOutLen {s : State} {r : Result} {bytes : Bytes} (hy : s.rspReady = true)
    (hfit : r.Fits 65535) (h : r.output = some bytes) : (s.finish r).lastOutLen = bytes.length := by
  rw [State.lastOutLen, State.finish_delivered_of_ready hy]
  exact (rspOutLen_pack hfit).trans (by rw [h]; rfl)

/-- After a command delivered its output, the host's copy puts exactly that output in `IBUF`, and the block is
idle under the same inputs (R71). -/
theorem feedBack_finish {s : State} {r : Result} {bytes : Bytes} (hy : s.rspReady = true)
    (hwf : Memory.wf ibufSize (some ibufUnlisted) s.ibuf = true) (hfit : r.Fits 65535)
    (h : r.output = some bytes) :
    ∃ t, hostAct .feedBack (s.finish r) = .next t ∧ t.input bytes.length = bytes ∧
      t.cfg = s.cfg ∧ t.rst = s.rst ∧ t.txn = none ∧ t.rspReady = true := by
  have hidle : (s.finish r).txn = none := State.finish_txn_of_ready hy
  have hfeed : hostAct .feedBack (s.finish r) = hostAct (.fill bytes) (s.finish r) := by
    rw [hostAct, hostAct, State.finish_lastOutLen hy hfit h, State.finish_output h]
  obtain ⟨t, hfill, hinput, -⟩ :=
    filledBytesAreTheInput (s.finish r) bytes (by rwa [State.finish_ibuf]) hidle (hfit bytes h)
  refine ⟨t, hfeed.trans hfill, hinput, ?_⟩
  have hbusy : (s.finish r).busy = false := by simp [State.busy, hidle]
  rw [hostAct, hbusy] at hfill
  obtain ⟨-, rfl⟩ := (State.fill_next_iff ..).1 hfill
  exact ⟨State.finish_cfg .., State.finish_rst .., hidle, (State.finish_rspReady ..).trans hy⟩

end Sys2Proof.Machine
end

section
/-! SUPPORT. The statements of 43_encode.md, settled in the order of their tiers. -/

namespace Sys2Proof.Machine

/-- Settles O33: the datagram is no longer than `MAX_DGRAM`, and it passes the ten checks of `DECODE` for its
own destination port. -/
theorem encodeThenDecodeRoundTrip : Obligations.EncodeThenDecodeRoundTrip := by
  intro cfg c P G hlen hP henc
  rw [transact_encodeDescriptor (.encode c) (hlen.trans_le hP)] at henc
  obtain ⟨hfits, rfl⟩ := (runEncode_eq_encoded_iff ..).1 (Except.ok.inj henc)
  have hG := datagram_length cfg c P
  have hmax : 28 + P.length ≤ 65535 := hfits.trans (Nat.le_of_lt_succ cfg.maxDgram.isLt)
  refine (transact_encodeDescriptor _ ?_ ..).trans (outcomeOf_decode_datagram hfits hG rfl)
  exact hG.trans_le hmax

/-- Settles O34: the copy puts the datagram where `DECODE` reads it, so that the outcomes are those of O33. -/
theorem roundTripOnTheMachine : Obligations.RoundTripOnTheMachine := by
  intro cap s c hinv hr hn hy hfits
  have hmax : 28 + c.inLen ≤ 65535 := hfits.trans s.capacity_le
  have hP : (s.input c.inLen).length = c.inLen := s.input_length c.inLen
  have hG : (datagram s.cfg c (s.input c.inLen)).length = 28 + c.inLen := by rw [datagram_length, hP]
  have hencode := issue_encodeDescriptor (.encode c) hr hn (Nat.le_of_add_left_le hmax)
    (outcomeOf_encode_of_fits hfits)
  obtain ⟨t, hcopy, hinput, hcfg, hrst, hidle, hready⟩ :=
    feedBack_finish (s := s.issued (encodeDescriptor (.encode c))) hy hinv.ibuf
      (Result.fits_encoded (hG.trans_le hmax)) rfl
  rw [hG] at hinput
  rw [State.issued_cfg] at hcfg
  have hout : outcomeOf t.cfg (.decode ⟨false, 28 + c.inLen, c.port, 0#16, 0#32⟩) (t.input (28 + c.inLen))
      = .ok (.decoded (s.input c.inLen) s.cfg.srcAddr c.srcPort) := by
    rw [hcfg, hinput]
    exact outcomeOf_decode_datagram (by rwa [hP]) (by rw [hP]) rfl
  refine ⟨_, t, _, hencode, hcopy, issue_encodeDescriptor _ (hrst.trans hr) hidle hmax hout, ?_, ?_⟩
  · exact (congrArg (State.output _) hP.symm).trans (State.finish_output rfl)
  · exact (State.finish_delivered_of_ready (s := t.issued _) hready).trans (by rw [Result.pack, hP])

/-- Settles O29: a written field is its number's bytes, and no length wraps at 16 bits. -/
theorem encodeBuildsTheDatagram : Obligations.EncodeBuildsTheDatagram := by
  intro c s hfits P n src dst U uc H hc
  have hlen : P.length = n := s.input_length n
  have hmax : 28 + n ≤ 65535 := hfits.trans s.capacity_le
  have huc : udpChecksum s.cfg c P = udpStore uc := by
    rw [udpChecksum, hlen, pseudo_eq_bytes hmax, udpHeader_eq_bytes hmax]
    simp only [uc, U, List.append_assoc]
    rfl
  have hhc : ipChecksum s.cfg c n = hc := by
    rw [ipChecksum, ipHeader_eq_bytes hmax]
    rfl
  have hstore : (udpStore uc).toNat = if uc = 0x0000#16 then 0xFFFF else uc.toNat :=
    apply_ite BitVec.toNat ..
  have hbytes : datagram s.cfg c P = H ++ twoBytes hc.toNat ++ src ++ dst ++ U
      ++ twoBytes (if uc = 0x0000#16 then 0xFFFF else uc.toNat) ++ P := by
    rw [datagram, hlen, huc, hhc, ipHeader_eq_bytes hmax, udpHeader_eq_bytes hmax, hstore]
    simp only [U, List.append_assoc]
    rfl
  rw [exec_of_outcome (outcomeOf_encode_of_fits hfits), State.finish, State.withOutput_of_some _ _ rfl,
    Result.pack, datagram_length, hlen, ← hbytes]

/-- Settles O31: the size check is the only branch of `ENCODE`. -/
theorem encodeFailsOnSizeAlone : Obligations.EncodeFailsOnSizeAlone :=
  fun cfg c P => ⟨fun h => ⟨_, runEncode_of_fits h c, datagram_length cfg c P⟩,
    fun h => runEncode_of_oversize (Nat.not_le.1 h) c⟩

/-- Settles O32: each checksum field verifies over the stream it was generated from, the header checksum without
the substitution of R125, the UDP checksum with it. -/
theorem emittedChecksumsVerify : Obligations.EmittedChecksumsVerify := by
  intro cfg c P G henc
  obtain ⟨-, rfl⟩ := (runEncode_eq_encoded_iff ..).1 henc
  refine ⟨verify_ipHeader cfg c P.length, ?_, ?_, verify_udpDatagram cfg c P⟩
  · rw [num16_datagram_ipChecksum]
    exact fun h => ipChecksum_ne_ones cfg c P.length (BitVec.eq_of_toNat_eq h)
  · rw [num16_datagram_udpChecksum]
    exact fun h => udpChecksum_ne_zero cfg c P (BitVec.eq_of_toNat_eq h)

/-- Settles O30: the outcome is the error, and raising it writes its result only. -/
theorem encodeRejectsOversizePayload : Obligations.EncodeRejectsOversizePayload := by
  intro c s h
  have hout : outcomeOf s.cfg (.encode c) (s.input c.inLen) = .ok (.err .payloadTooLarge) :=
    congrArg Except.ok (runEncode_of_oversize (by rwa [State.input_length]) c)
  exact ⟨exec_of_outcome hout, State.offer_obuf .., State.offer_obufEpoch ..⟩

end Sys2Proof.Machine
end

section
/-!
SUPPORT. The errors of the commands by their cause: the steps of `DECODE` that raise a kind, and the one error of
`ENCODE` (60_exceptions.md R201, R202).
-/

namespace Sys2Proof.Machine

/-- The steps of `DECODE` that raise a kind (R201, column "at"). -/
def ErrorKind.steps (k : ErrorKind) : List Nat := (List.range' 1 10).filter (kindOfStep · = k)

theorem ErrorKind.mem_steps_iff {k : ErrorKind} {n : Nat} :
    n ∈ k.steps ↔ 1 ≤ n ∧ n ≤ 10 ∧ kindOfStep n = k := by
  simp only [steps, List.mem_filter, List.mem_range'_1, decide_eq_true_eq, and_assoc, Nat.lt_succ_iff]

section Causes
variable {port : Half} {B : Bytes} {k : ErrorKind}

/-- `DECODE` ends in a kind where one of the kind's steps is the first that fails (R205). -/
theorem runDecode_eq_err_iff :
    runDecode port B = .err k ↔ ∃ n ∈ k.steps, passes port B (n - 1) ∧ ¬ check port B n := by
  constructor
  · intro h
    rcases runDecode_decidedBy port B with ⟨n, hn, herr⟩ | ⟨-, hok⟩
    · have hkind : kindOfStep n = k := Result.err.inj (herr.symm.trans h)
      exact ⟨n, ErrorKind.mem_steps_iff.2 ⟨hn.pos, hn.le, hkind⟩, hn.before, hn.fails⟩
    · exact nomatch hok.symm.trans h
  · rintro ⟨n, hmem, hbefore, hfails⟩
    obtain ⟨hpos, hle, rfl⟩ := ErrorKind.mem_steps_iff.1 hmem
    exact FailsFirst.runDecode_eq ⟨hpos, hle, hbefore, hfails⟩

theorem runDecode_eq_err_iff_of_one_step {n : Nat} (h : k.steps = [n]) :
    runDecode port B = .err k ↔ passes port B (n - 1) ∧ ¬ check port B n := by
  simp only [runDecode_eq_err_iff, h, List.mem_singleton, exists_eq_left]

theorem runDecode_eq_err_iff_of_two_steps {m n : Nat} (h : k.steps = [m, n]) :
    runDecode port B = .err k ↔
      (passes port B (m - 1) ∧ ¬ check port B m) ∨ (passes port B (n - 1) ∧ ¬ check port B n) := by
  simp only [runDecode_eq_err_iff, h, List.mem_pair, or_and_right, exists_or, exists_eq_left]

theorem runDecode_ne_err_of_no_step (h : k.steps = []) : runDecode port B ≠ .err k := by
  intro herr
  obtain ⟨n, hmem, -⟩ := runDecode_eq_err_iff.1 herr
  rw [h] at hmem
  exact absurd hmem List.not_mem_nil

theorem runDecode_eq_tooShort_iff :
    runDecode port B = .err .tooShort ↔ B.length < 20 ∨ passes port B 6 ∧ ¬ check port B 7 := by
  have hstep1 : passes port B 0 ∧ ¬ check port B 1 ↔ B.length < 20 :=
    (and_iff_right (Tests.passes_zero port B)).trans Nat.not_le
  exact (runDecode_eq_err_iff_of_two_steps (m := 1) (n := 7) rfl).trans (or_congr_left hstep1)

theorem runEncode_eq_err_iff (cfg : Config) (c : Operands) (P : Bytes) :
    runEncode cfg c P = .err k ↔ k = .payloadTooLarge ∧ cfg.maxDgram.toNat < 28 + P.length := by
  rcases Nat.lt_or_ge cfg.maxDgram.toNat (28 + P.length) with h | h
  · simp [runEncode_of_oversize h, h, eq_comm]
  · simp [runEncode_of_fits h, Nat.not_lt.2 h]

end Causes

end Sys2Proof.Machine
end

section
/-! SUPPORT. The statements of 60_exceptions.md, settled in the order of their tiers. -/

namespace Sys2Proof.Machine

/-- Settles O20: under the duty the outcome is the first failing step's kind, and ending with an error is raising
it (R212). -/
theorem decodeFirstFailingStepDecides : Obligations.DecodeFirstFailingStepDecides := by
  intro c s n hduty hpos hle hbefore hfails
  have hrun : runDecode c.port (s.input c.inLen) = .err (kindOfStep n) :=
    FailsFirst.runDecode_eq ⟨hpos, hle, hbefore, hfails⟩
  have hout : outcomeOf s.cfg (.decode c) (s.input c.inLen) = .ok (.err (kindOfStep n)) :=
    (underDuty_ok_iff ..).2 ⟨hduty, hrun⟩
  exact exec_of_outcome hout

/-- Settles O22: six kinds of `DECODE` have one step each, `TooShort` has steps 1 and 7, `LengthMismatch` has
steps 5 and 8, and `PayloadTooLarge` has none. -/
theorem errorKindCauses : Obligations.ErrorKindCauses := by
  intro port B cfg c P
  exact ⟨runDecode_eq_tooShort_iff,
    runDecode_eq_err_iff_of_one_step (n := 2) rfl,
    runDecode_eq_err_iff_of_one_step (n := 3) rfl,
    runDecode_eq_err_iff_of_one_step (n := 4) rfl,
    runDecode_eq_err_iff_of_two_steps (m := 5) (n := 8) rfl,
    runDecode_eq_err_iff_of_one_step (n := 6) rfl,
    runDecode_eq_err_iff_of_one_step (n := 9) rfl,
    runDecode_eq_err_iff_of_one_step (n := 10) rfl,
    runDecode_ne_err_of_no_step rfl,
    fun _ => runEncode_eq_err_iff cfg c P,
    fun _ => nofun⟩

/-- Settles O8: both tables are read off kind by kind. -/
theorem statusCodesAndClasses : Obligations.StatusCodesAndClasses := by
  unfold Obligations.StatusCodesAndClasses
  decide

end Sys2Proof.Machine
end

section
/-! SUPPORT. The statements of 70_reset_and_hazards.md, settled in the order of their tiers. -/

namespace Sys2Proof.Machine

/-! ### Reset (R230, R231) -/

section Reset
variable {s : State}

theorem State.cmdReady_of_rst (h : s.rst = true) : s.cmdReady = false := by simp [State.cmdReady, h]

theorem State.rspValid_of_rst (h : s.rst = true) : s.rspValid = false := by
  unfold State.rspValid
  split
  · simp [h]
  · rfl

theorem State.resetBlock_of_idle (h : s.txn = none) : s.resetBlock = s := by simp [State.resetBlock, h]

theorem State.resetBlock_of_busy (h : s.txn ≠ none) : s.resetBlock = { s.loseObuf with txn := none } := by
  obtain ⟨x, hx⟩ := Option.ne_none_iff_exists'.1 h
  simp [State.resetBlock, hx]

theorem State.resetBlock_obufByte_of_busy (h : s.txn ≠ none) (a : Nat) :
    s.resetBlock.obufByte a = Config.obufFree s.resetBlock.obufEpoch a := by
  rw [State.resetBlock_of_busy h]
  rfl

/-- An idle block that accepts no command stands still, in reset or out of it. -/
theorem step_of_idle (hn : s.txn = none) (h : s.cmdValid = false ∨ s.rst = true) : step s = .next s := by
  rcases Bool.eq_false_or_eq_true s.rst with hr | hr
  · rw [step_of_rst hr, State.resetBlock_of_idle hn]
  · have hv : s.cmdValid = false := h.resolve_right (by simp [hr])
    obtain ⟨-, -, hidle⟩ := transactionHandshake s hr
    obtain ⟨-, -, hstep⟩ := hidle hn hv
    exact hstep

end Reset

/-! ### What the host sees of `OBUF` (R29, R239) -/

section HostObuf
variable {s : State} {a : Nat} (any : Byte)

theorem State.hostObuf_of_no_byte (h : ¬ (a < s.capacity ∨ (s.txn = none ∧ a < s.lastOutLen))) :
    s.hostObuf a any = .error .obufAddress :=
  if_neg (mt (State.hasObuf_iff s a).1 h)

theorem State.hostObuf_of_busy (hx : s.txn ≠ none) (h : a < s.capacity) : s.hostObuf a any = .ok any := by
  have hbusy : s.busy = true := by simpa [State.busy, Option.isSome_iff_ne_none] using hx
  rw [State.hostObuf, if_pos ((State.hasObuf_iff s a).2 (.inl h)), if_pos hbusy]

theorem State.hostObuf_of_idle (hn : s.txn = none) (h : a < s.capacity ∨ a < s.lastOutLen) :
    s.hostObuf a any = .ok (s.obufByte a) := by
  have hbusy : ¬ s.busy = true := by simp [State.busy, hn]
  rw [State.hostObuf, if_pos ((State.hasObuf_iff s a).2 (h.imp_right (.intro hn))), if_neg hbusy]

end HostObuf

/-! ### What keeps the last result and `OBUF` (R36, R239) -/

/-- `t` holds the last result and the `OBUF` of `s`. -/
structure State.KeepsOutput (s t : State) : Prop where
  delivered : t.delivered = s.delivered
  obuf : t.obuf = s.obuf
  obufEpoch : t.obufEpoch = s.obufEpoch

section KeepsOutput
variable {s t : State}

theorem State.KeepsOutput.refl (s : State) : s.KeepsOutput s := ⟨rfl, rfl, rfl⟩

theorem State.KeepsOutput.lastOutLen (h : s.KeepsOutput t) : t.lastOutLen = s.lastOutLen := by
  simp only [State.lastOutLen, h.delivered]

theorem State.KeepsOutput.obufByte (h : s.KeepsOutput t) (a : Nat) : t.obufByte a = s.obufByte a := by
  simp only [State.obufByte, h.obuf, h.obufEpoch]

theorem State.KeepsOutput.fill {bytes : Bytes} (h : s.fill bytes = .next t) : s.KeepsOutput t := by
  obtain ⟨-, rfl⟩ := (State.fill_next_iff ..).1 h
  exact ⟨rfl, rfl, rfl⟩

/-- An action that is refused while a command is in flight answers what it does on an idle block. -/
theorem next_of_guard {c : Prop} [Decidable c] {why : Refusal} {o : Host.Outcome State Fault Refusal}
    (h : (if c then .refused why else o) = .next t) : o = .next t := by
  split at h
  · cases h
  · exact h

/-- Of the host's actions only a write of `OBUF` changes it, whether or not a command is in flight after. -/
theorem State.KeepsOutput.hostAct {act : HostAction} (h : hostAct act s = .next t)
    (hw : ∀ bytes, act ≠ .writeObuf bytes) : s.KeepsOutput t := by
  cases act with
  | configure cfg => cases next_of_guard h; exact ⟨rfl, rfl, rfl⟩
  | fill bytes => exact .fill (next_of_guard h)
  | writeObuf bytes => exact absurd rfl (hw bytes)
  | feedBack => exact .fill (next_of_guard h)
  | present d => cases h; exact ⟨rfl, rfl, rfl⟩
  | withdraw => cases h; exact ⟨rfl, rfl, rfl⟩
  | ready level => cases h; exact ⟨rfl, rfl, rfl⟩
  | drive level => cases h; exact ⟨rfl, rfl, rfl⟩
  | handshake =>
    rw [Machine.hostAct] at h
    split at h
    · cases h; exact ⟨rfl, rfl, rfl⟩
    · cases h; exact .refl s

end KeepsOutput

/-! ### The statements -/

/-- Settles O46, by what the reset of an idle and of a busy block leaves in each field. -/
theorem resetAbandonsTheCommandInFlight : Obligations.ResetAbandonsTheCommandInFlight := by
  intro s hr
  refine ⟨State.cmdReady_of_rst hr, State.rspValid_of_rst hr, fun hn => step_of_idle hn (.inr hr), fun hx => ?_⟩
  exact ⟨s.resetBlock, step_of_rst hr, State.resetBlock_txn s, State.resetBlock_delivered s,
    State.resetBlock_cfg s, State.resetBlock_ibuf s, State.resetBlock_obufByte_of_busy hx⟩

/-- Settles O53: `OBUF` has a byte for the host below `MAX_DGRAM`, and on an idle block also in the last
result. -/
theorem hostViewOfObuf : Obligations.HostViewOfObuf := by
  intro s a any
  refine ⟨fun hx ha => State.hostObuf_of_no_byte any ?_, fun hx => State.hostObuf_of_busy any hx,
    fun _ ha hl => State.hostObuf_of_no_byte any ?_, fun hn => State.hostObuf_of_idle any hn⟩
  · rintro (hlt | ⟨hn, -⟩)
    · exact Nat.not_lt.2 ha hlt
    · exact hx hn
  · rintro (hlt | ⟨-, hlt⟩)
    · exact Nat.not_lt.2 ha hlt
    · exact Nat.not_lt.2 hl hlt

/-- Settles O55: every such action keeps the last result and `OBUF`, and such a step changes nothing. -/
theorem outputStaysUntilTheNextCommand : Obligations.OutputStaysUntilTheNextCommand := by
  intro s t hs ht hact
  have hkeep : s.KeepsOutput t := by
    rcases hact with ⟨act, hnext, hw⟩ | ⟨hidle, hstep⟩
    · exact .hostAct hnext hw
    · obtain rfl : s = t := by simpa [step_of_idle hs hidle] using hstep
      exact .refl s
  refine ⟨hkeep.delivered, hkeep.obufByte, fun a any ha => ?_⟩
  rw [State.hostObuf_of_idle any ht (.inr (hkeep.lastOutLen ▸ ha)), hkeep.obufByte]

end Sys2Proof.Machine
end
